-- ==== Sys2Proof/Word.lean ====
section
/-! DEFINITION. The word types of the core and the names of its operands.

Rules: 00_scope R7 (8-bit data, 16-bit addresses), 30_encoding R101 to R103 (field tables).
Register, pair and condition names are inductive types: a field value that names nothing (r = 6 where a
register is meant) cannot be written. -/

namespace Sys2Proof

/-- An 8-bit value: a register, a memory byte, a byte of an instruction. -/
abbrev Byte := BitVec 8

/-- A 16-bit value: a register pair, an address, a port. -/
abbrev Word := BitVec 16

/-- The seven 8-bit registers an r field can name (30_encoding R102; r = 6 is the memory operand). -/
inductive Reg8 where
  | b | c | d | e | h | l | a
  deriving DecidableEq, Repr

/-- The rp (dd/ss) field (30_encoding R102). -/
inductive Pair where
  | bc | de | hl | sp
  deriving DecidableEq, Repr

/-- The rp2 (qq) field of PUSH and POP (30_encoding R102). -/
inductive StackPair where
  | bc | de | hl | af
  deriving DecidableEq, Repr

/-- The pp field of ADD XR,pp: rp with HL replaced by XR (30_encoding R102). -/
inductive IdxPair where
  | bc | de | xr | sp
  deriving DecidableEq, Repr

/-- The pointer pairs of LD A,(rr) and LD (rr),A (40_load8 R148, R149). -/
inductive PtrPair where
  | bc | de
  deriving DecidableEq, Repr

/-- The cc field (10_state R41). -/
inductive Cond where
  | nz | z | nc | c | po | pe | p | m
  deriving DecidableEq, Repr

/-- The two-bit condition of JR cc (10_state R41, 48_jump_call R363). -/
inductive JrCond where
  | nz | z | nc | c
  deriving DecidableEq, Repr

/-- The index register a prefix selects: IX after 0xDD, IY after 0xFD (30_encoding R110). -/
inductive XR where
  | ix | iy
  deriving DecidableEq, Repr

/-- A byte of an index register: XRH or XRL (10_state R34). -/
inductive Half where
  | hi | lo
  deriving DecidableEq, Repr

end Sys2Proof
end

