-- ==== Sys2Proof/Machine/Bits.lean ====
section
/-! DEFINITION. Bytes of words, sign extension and opcode fields (00_scope R9, R10; 30_encoding R101). -/

namespace Sys2Proof

/-- `h:l`, the word whose high byte is `h` (00_scope R9). -/
def mkWord (h l : Byte) : Word := h ++ l

/-- Bits 15..8 of a word (00_scope R9). -/
def hiByte (w : Word) : Byte := w.extractLsb' 8 8

/-- Bits 7..0 of a word (00_scope R9). -/
def loByte (w : Word) : Byte := w.extractLsb' 0 8

/-- `sext_8`: the signed value of a byte as a 16-bit pattern (00_scope R10). -/
def sext (b : Byte) : Word := b.signExtend 16

/-- The field x = op[7:6] (30_encoding R101). -/
def opX (op : Byte) : BitVec 2 := op.extractLsb' 6 2

/-- The field y = op[5:3] (30_encoding R101). -/
def opY (op : Byte) : BitVec 3 := op.extractLsb' 3 3

/-- The field z = op[2:0] (30_encoding R101). -/
def opZ (op : Byte) : BitVec 3 := op.extractLsb' 0 3

/-- The field p = op[5:4] (30_encoding R101). -/
def opP (op : Byte) : BitVec 2 := op.extractLsb' 4 2

/-- The field q = op[3] (30_encoding R101). -/
def opQ (op : Byte) : Bool := op.getLsbD 3

/-- A three-bit field placed at bits 5:3 of an opcode byte. -/
def field3 (v : BitVec 3) : Byte := v.zeroExtend 8 <<< 3

/-- A three-bit field placed at bits 2:0 of an opcode byte. -/
def low3 (v : BitVec 3) : Byte := v.zeroExtend 8

/-- A two-bit field placed at bits 5:4 of an opcode byte. -/
def field2 (v : BitVec 2) : Byte := v.zeroExtend 8 <<< 4

end Sys2Proof
end

