-- ==== Sys2Proof/Config.lean ====
section
/-! DEFINITION. The parameters of 00_scope R8, their values for this hardware, and the values the spec leaves
free.

`Params` gathers the parameters that are plain data: State holds one, so the step takes them as arguments and
a statement about every state holds for every value of them. Of the other three, the answers of IO_DEVICE are
free values, IM2_BUS_BYTE is an input of the step, and POWER_ON_REGS is an argument of power-on.

A free value is an `opaque` constant with no body: nothing can evaluate it or prove a value of it, so a
statement about it holds for every value. It is applied to the draw count that State holds, so every draw is
a value of its own. -/

namespace Sys2Proof

/-- `XY_SCF_CCF`: where bits 5 and 3 come from after SCF and CCF (44_general R265). -/
inductive ScfFlags where
  | fromA
  | chipQ
  deriving DecidableEq, Repr

/-- `BLOCK_REPEAT_FLAGS`: the flags of a repeating block iteration (42_exchange_block R213). -/
inductive RepeatFlags where
  | classic
  | chip2018
  deriving DecidableEq, Repr

/-- `MEM_DEVICE`: the device that answers memory reads (20_memory R74). -/
inductive MemDevice where
  /-- 64 KiB of RAM: a read returns the byte most recently written. -/
  | ram
  /-- A device of which nothing is known: every read returns a free value, so what holds of it holds of every
  device, with side effects (20_memory R83) or without (log entry 1). -/
  | oracle
  deriving DecidableEq, Repr

/-- The open parameters of 00_scope R8 that are plain data. -/
structure Params where
  /-- `UNDOC_UNIMPL`: the index-table entries that raise UnimplementedUndocumented (30_encoding R116). -/
  undocUnimpl : List (XR × Byte)
  /-- `MEM_DEVICE` (20_memory R74). -/
  memDevice : MemDevice
  /-- `XY_SCF_CCF` (44_general R265). -/
  scfFlags : ScfFlags
  /-- `BLOCK_REPEAT_FLAGS` (42_exchange_block R213). -/
  repeatFlags : RepeatFlags
  /-- `OUT_C0_VALUE` (49_io R399). -/
  outC0Value : Byte
  deriving DecidableEq, Repr

/-- `UNDOC_UNIMPL`: the index-table entries that raise UnimplementedUndocumented (30_encoding R116). The
spec's value is the empty set (log entry 9). -/
def Config.undocUnimpl : List (XR × Byte) := []

/-- The spec's value of `XY_SCF_CCF` (44_general R265, log entry 6). -/
def Config.scfFlags : ScfFlags := .fromA

/-- The spec's value of `BLOCK_REPEAT_FLAGS` (42_exchange_block R213, log entry 7). -/
def Config.repeatFlags : RepeatFlags := .classic

/-- The spec's value of `OUT_C0_VALUE`, the NMOS part's (49_io R399, log entry 8). -/
def Config.outC0Value : Byte := 0x00

/-- The parameters at the spec's values (00_scope R8). -/
def Config.specParams : Params where
  undocUnimpl := Config.undocUnimpl
  memDevice := .ram
  scfFlags := Config.scfFlags
  repeatFlags := Config.repeatFlags
  outC0Value := Config.outC0Value

/-- The spec's value of `IM2_BUS_BYTE` when no peripheral drives the bus (60_exceptions R422, log entry 4). -/
def Config.idleBusByte : Byte := 0xFF

/-- What a byte of memory that nothing has written reads as: the initial image of the RAM device, which the
spec leaves to the platform. DESIGN CHOICE, unsafe (20_memory R74, log entry 1). -/
def Config.initialByte : Byte := 0x00

/-- FREE VALUE: the byte the I/O device answers on the draw of this number at this port
(20_memory R75, log entry 2). -/
opaque Config.ioAnswer : Nat → Word → Byte

/-- FREE VALUE: the byte that a memory device other than RAM answers to the opcode or operand fetch of this
number at this address, but for what `Config.runEnd` says of it (20_memory R74, log entry 1). -/
opaque Config.fetchAnswer : Nat → Word → Byte

/-- FREE VALUE: where the run of index prefixes that such a device answers from the fetch of this number at this
address on ends at the latest, as a number of fetches after it; none where it never ends. Any run of any length
is one of its values, and so is an endless one (30_encoding R113, log entry 11). -/
opaque Config.runEnd : Nat → Word → Option Nat

/-- FREE VALUE: the byte that a memory device other than RAM answers to a data read at this address by the
instruction or acceptance that begins at this draw. No instruction and no acceptance reads one address twice
as data, so this leaves every answer free (20_memory R74, log entry 1). -/
opaque Config.memAnswer : Nat → Word → Byte

/-- FREE VALUE: the byte whose bits stand for flag bits the spec calls any value (47_bit R341,
44_general R265, 42_exchange_block R213, log entry 10). -/
opaque Config.freeByte : Nat → Byte

end Sys2Proof
end

