-- ==== Sys2Proof/Machine/State.lean ====
section
/-! DEFINITION. The state of the core, its reset value, and the names of the reasons a step can stop.

State holds every piece of state of 10_state, as plain data, and besides it the step's inputs and outputs
that a step function of the state alone needs: the INT level and the bus byte (60_exceptions R422), the bus
transactions and the cost of the latest step (20_memory R71, 60_exceptions R421), the parameters of the machine
(00_scope R8), and the count of the free values drawn. -/

namespace Sys2Proof.Machine

/-- The interrupt mode IM (10_state R48). The value 3 is never held (log entry 16). -/
inductive IntMode where
  | im0
  | im1
  | im2
  deriving DecidableEq, Repr

/-- The kind of a bus transaction (20_memory R71). -/
inductive BusKind where
  /-- An opcode fetch: a memory read. -/
  | m1
  /-- Any other memory read. -/
  | mr
  /-- A memory write. -/
  | mw
  /-- An I/O read. -/
  | ior
  /-- An I/O write. -/
  | iow
  deriving DecidableEq, Repr

/-- One bus transaction of one byte (20_memory R70, R71). -/
structure BusEvent where
  kind : BusKind
  addr : Word
  data : Byte
  deriving DecidableEq, Repr

/-- The two synchronous exceptions (60_exceptions R440). -/
inductive FaultKind where
  | invalidOpcode
  | unimplementedUndocumented
  deriving DecidableEq, Repr

/-- The fault record (10_state R54): the kind, the address of the step's first byte and the opcode bytes
fetched in the faulting step. -/
structure FaultRecord where
  kind : FaultKind
  pc : Word
  bytes : List Byte
  deriving DecidableEq, Repr

/-- The state of the core (10_state) with the RAM device, the inputs and the outputs of the step. -/
structure State where
  /-- The main registers (10_state R30). -/
  a : Byte
  f : Byte
  b : Byte
  c : Byte
  d : Byte
  e : Byte
  h : Byte
  l : Byte
  /-- The shadow registers (10_state R31). -/
  a' : Byte
  f' : Byte
  b' : Byte
  c' : Byte
  d' : Byte
  e' : Byte
  h' : Byte
  l' : Byte
  /-- The 16-bit registers (10_state R32). -/
  ix : Word
  iy : Word
  sp : Word
  pc : Word
  /-- The interrupt page register I (10_state R42). -/
  i : Byte
  /-- The refresh register R: bit 7 is R7, bits 6:0 the counter (10_state R43). -/
  r : Byte
  /-- The interrupt flip-flops (10_state R47). -/
  iff1 : Bool
  iff2 : Bool
  /-- The interrupt mode (10_state R48). -/
  im : IntMode
  /-- The halted bit; it drives the HALT pin (10_state R51, R55). -/
  halted : Bool
  /-- The EI-delay counter (10_state R52). -/
  eiDelay : Nat
  /-- The latched NMI request (10_state R53). -/
  nmiPending : Bool
  /-- The fault record, none while the core runs (10_state R54). -/
  fault : Option FaultRecord
  /-- INPUT: the INT level the host drives (60_exceptions R422, log entry 4). -/
  intLine : Bool
  /-- INPUT: the byte the host puts on the bus for an IM 2 acceptance (60_exceptions R422, log entry 4). -/
  busByte : Byte
  /-- The byte most recently written at each address, which is what the RAM device answers (20_memory R74):
  strictly rising addresses, no entry equal to what an unlisted address reads as. -/
  mem : List Host.Cell
  /-- OUTPUT: the transactions of the latest step, oldest first (20_memory R71, log entry 5). -/
  bus : List BusEvent
  /-- OUTPUT: the T-states the latest step returned; none after a fault (60_exceptions R421, log entry 5). -/
  tstates : Option Nat
  /-- The position in the sequence of free values: it advances with every fetch, every I/O read, every free
  flag byte and every IM 2 acceptance (log entry 2). -/
  draws : Nat
  /-- The open parameters of the machine: no step and no host action changes them (00_scope R8). -/
  params : Params
  deriving DecidableEq, Repr

/-- Why a step stops the machine. -/
inductive Fault where
  /-- Raised by `step` in a state whose fault record is set: no step is defined from it (60_exceptions R443).
  Safe: the spec gives no next state. -/
  | faulted
  /-- Raised by `step`, and by the rows of the index prefixes, exactly where the run of DD and FD prefixes never
  ends, because the memory device answers nothing else: the step of 30_encoding R113 does not return (60_exceptions
  R420, log entry 11). Safe: the spec gives no next state. -/
  | endlessPrefixRun
  deriving DecidableEq, Repr

/-- Why the model has no move. -/
inductive Refusal where
  /-- Raised by `exec` for an instruction with no meaning yet. Safe. -/
  | notModelled (mnemonic : String)
  /-- Raised by a host accessor that would write IM = 3 or ei_delay > 1 (60_exceptions R450). Safe: the spec
  refuses the write. -/
  | illegalHostWrite
  deriving DecidableEq, Repr

/-- What an instruction or a step answers. -/
abbrev Result := Host.Outcome State Fault Refusal

/-- The state after power-on initialization: the values of 10_state R58. The registers of POWER_ON_REGS,
which the spec leaves unspecified, are zero: DESIGN CHOICE, unsafe (70_reset_and_hazards R472, log entry 3). -/
def State.reset : State where
  a := 0
  f := 0
  b := 0
  c := 0
  d := 0
  e := 0
  h := 0
  l := 0
  a' := 0
  f' := 0
  b' := 0
  c' := 0
  d' := 0
  e' := 0
  h' := 0
  l' := 0
  ix := 0
  iy := 0
  sp := 0
  pc := 0x0000
  i := 0x00
  r := 0x00
  iff1 := false
  iff2 := false
  im := .im0
  halted := false
  eiDelay := 0
  nmiPending := false
  fault := none
  intLine := false
  busByte := Config.idleBusByte
  mem := []
  bus := []
  tstates := none
  draws := 0
  params := Config.specParams

end Sys2Proof.Machine
end

