-- ==== Sys2Proof/Machine/Ops.lean ====
section
/-! DEFINITION. The named operations over registers, memory, the bus and the stack, and what taking an
interrupt, raising a fault and returning from an interrupt do. -/

namespace Sys2Proof.Machine

/-! ### Registers and their views -/

/-- An 8-bit main register (10_state R30). -/
def State.reg8 (s : State) : Reg8 → Byte
  | .b => s.b
  | .c => s.c
  | .d => s.d
  | .e => s.e
  | .h => s.h
  | .l => s.l
  | .a => s.a

/-- Write an 8-bit main register. -/
def State.setReg8 (s : State) (r : Reg8) (v : Byte) : State :=
  match r with
  | .b => { s with b := v }
  | .c => { s with c := v }
  | .d => { s with d := v }
  | .e => { s with e := v }
  | .h => { s with h := v }
  | .l => { s with l := v }
  | .a => { s with a := v }

/-- BC = B:C (10_state R33). -/
def State.bc (s : State) : Word := mkWord s.b s.c

/-- DE = D:E (10_state R33). -/
def State.de (s : State) : Word := mkWord s.d s.e

/-- HL = H:L (10_state R33). -/
def State.hl (s : State) : Word := mkWord s.h s.l

/-- AF = A:F (10_state R33). -/
def State.af (s : State) : Word := mkWord s.a s.f

/-- Write BC: exactly its two halves (10_state R33). -/
def State.setBc (s : State) (v : Word) : State := { s with b := hiByte v, c := loByte v }

/-- Write DE. -/
def State.setDe (s : State) (v : Word) : State := { s with d := hiByte v, e := loByte v }

/-- Write HL. -/
def State.setHl (s : State) (v : Word) : State := { s with h := hiByte v, l := loByte v }

/-- Write AF, all eight bits of F (10_state R38). -/
def State.setAf (s : State) (v : Word) : State := { s with a := hiByte v, f := loByte v }

/-- A pair of the rp field (30_encoding R102). -/
def State.pair (s : State) : Pair → Word
  | .bc => s.bc
  | .de => s.de
  | .hl => s.hl
  | .sp => s.sp

/-- Write a pair of the rp field. -/
def State.setPair (s : State) (rr : Pair) (v : Word) : State :=
  match rr with
  | .bc => s.setBc v
  | .de => s.setDe v
  | .hl => s.setHl v
  | .sp => { s with sp := v }

/-- A pair of the rp2 field (30_encoding R102). -/
def State.stackPair (s : State) : StackPair → Word
  | .bc => s.bc
  | .de => s.de
  | .hl => s.hl
  | .af => s.af

/-- Write a pair of the rp2 field. -/
def State.setStackPair (s : State) (qq : StackPair) (v : Word) : State :=
  match qq with
  | .bc => s.setBc v
  | .de => s.setDe v
  | .hl => s.setHl v
  | .af => s.setAf v

/-- The index register XR (30_encoding R110). -/
def State.xr (s : State) : XR → Word
  | .ix => s.ix
  | .iy => s.iy

/-- Write the index register XR. -/
def State.setXr (s : State) (x : XR) (v : Word) : State :=
  match x with
  | .ix => { s with ix := v }
  | .iy => { s with iy := v }

/-- XRH or XRL (10_state R34). -/
def State.xrHalf (s : State) (x : XR) : Half → Byte
  | .hi => hiByte (s.xr x)
  | .lo => loByte (s.xr x)

/-- Write XRH or XRL: the other byte is unchanged (10_state R34). -/
def State.setXrHalf (s : State) (x : XR) (p : Half) (v : Byte) : State :=
  match p with
  | .hi => s.setXr x (mkWord v (loByte (s.xr x)))
  | .lo => s.setXr x (mkWord (hiByte (s.xr x)) v)

/-- A pair of the pp field (30_encoding R102). -/
def State.idxPair (s : State) (x : XR) : IdxPair → Word
  | .bc => s.bc
  | .de => s.de
  | .xr => s.xr x
  | .sp => s.sp

/-- A pointer pair: BC or DE (40_load8 R148). -/
def State.ptrPair (s : State) : PtrPair → Word
  | .bc => s.bc
  | .de => s.de

/-- `R_inc`: the low seven bits of R count mod 128 and bit 7 stays (10_state R46). -/
def State.rInc (s : State) : State :=
  { s with r := (s.r &&& 0x80) ||| ((s.r + 1) &&& 0x7F) }

/-! ### The memory device -/

/-- What an address holds: the listed byte, or what an unlisted address reads as (20_memory R74). -/
def memGet : List Host.Cell → Nat → Byte
  | [], _ => Config.initialByte
  | (k, v) :: rest, a => if k = a then v else memGet rest a

/-- Put a cell in front of the first cell of a higher address. -/
def insertCell (a : Nat) (v : Byte) : List Host.Cell → List Host.Cell
  | [] => [(a, v)]
  | (k, w) :: rest => if a < k then (a, v) :: (k, w) :: rest else (k, w) :: insertCell a v rest

/-- Write a byte: what an unlisted address reads as is not listed. -/
def memSet (m : List Host.Cell) (a : Nat) (v : Byte) : List Host.Cell :=
  let others := m.filter fun cell => cell.1 != a
  if v = Config.initialByte then others else insertCell a v others

/-- The canonical form from an address on: strictly rising addresses of the address space, no byte equal to
what an unlisted address reads as. -/
def Memory.wfFrom : Nat → List Host.Cell → Bool
  | _, [] => true
  | lo, (k, v) :: rest =>
    decide (lo ≤ k) && decide (k < 65536) && v != Config.initialByte && Memory.wfFrom (k + 1) rest

/-- The canonical form of a memory. -/
def Memory.wf (m : List Host.Cell) : Bool := Memory.wfFrom 0 m

/-- The byte most recently written at an address (20_memory R74). -/
def State.cell (s : State) (a : Word) : Byte := memGet s.mem a.toNat

/-- What the memory device answers to a data read of an address (20_memory R74). -/
def State.byteAt (s : State) (a : Word) : Byte :=
  match s.params.memDevice with
  | .ram => s.cell a
  | .oracle => Config.memAnswer s.draws a

/-- An index prefix, 0xDD or 0xFD (30_encoding R110). -/
def isIndexPrefix (v : Byte) : Bool := v == 0xDD || v == 0xFD

/-- Whether the fetch of number `n` at address `a` lies in a run of index prefixes that never ends. -/
def prefixesOnly (n : Nat) (a : Word) : Bool :=
  (List.range (n + 1)).any fun j => Config.runEnd j (a - BitVec.ofNat 16 (n - j)) == none

/-- Whether a run of index prefixes ends at the fetch of number `n` at address `a` at the latest. -/
def runEndsAt (n : Nat) (a : Word) : Bool :=
  (List.range (n + 1)).any fun j => Config.runEnd j (a - BitVec.ofNat 16 (n - j)) == some (n - j)

/-- What the oracle device answers to the fetch of number `n` at address `a`: a free byte, an index prefix where
the run never ends, and none where it ends (log entry 11). -/
def oracleFetch (n : Nat) (a : Word) : Byte :=
  let v := Config.fetchAnswer n a
  if prefixesOnly n a then if isIndexPrefix v then v else 0xDD
  else if runEndsAt n a && isIndexPrefix v then 0x00
  else v

/-- What the memory device answers to the fetch of an address that comes after `k` other fetches
(20_memory R74). -/
def State.codeAt (s : State) (k : Nat) (a : Word) : Byte :=
  match s.params.memDevice with
  | .ram => s.cell a
  | .oracle => oracleFetch (s.draws + k) a

/-- The word at an address: low byte first, the high byte at the next address mod 2^16 (20_memory R77). -/
def State.wordAt (s : State) (a : Word) : Word := mkWord (s.byteAt (a + 1)) (s.byteAt a)

/-! ### Bus transactions (20_memory R70 to R72) -/

/-- Record a transaction. -/
def State.emit (s : State) (kind : BusKind) (addr : Word) (data : Byte) : State :=
  { s with bus := s.bus ++ [{ kind := kind, addr := addr, data := data }] }

/-- The transaction of `MemRead` at an address; its value is `byteAt` (00_scope R12). -/
def State.readAt (s : State) (a : Word) : State := s.emit .mr a (s.byteAt a)

/-- `MemWrite` (00_scope R12). -/
def State.writeAt (s : State) (a : Word) (v : Byte) : State :=
  { s with mem := memSet s.mem a.toNat v, bus := s.bus ++ [{ kind := .mw, addr := a, data := v }] }

/-- The transactions of `Read16`, low byte first; its value is `wordAt` (00_scope R12). -/
def State.readWordAt (s : State) (a : Word) : State := (s.readAt a).readAt (a + 1)

/-- `Write16`, low byte first (00_scope R12). -/
def State.writeWordAt (s : State) (a : Word) (v : Word) : State :=
  (s.writeAt a (loByte v)).writeAt (a + 1) (hiByte v)

/-- `IoRead`: the answer is a free value of the draw and the port (20_memory R75). -/
def State.ioRead (s : State) (port : Word) : Byte × State :=
  let v := Config.ioAnswer s.draws port
  (v, { s.emit .ior port v with draws := s.draws + 1 })

/-- `IoWrite`: a recorded event (20_memory R75). -/
def State.ioWrite (s : State) (port : Word) (v : Byte) : State := s.emit .iow port v

/-- Draw a byte whose bits stand for flag bits that the spec calls any value (log entry 10). -/
def State.drawByte (s : State) : Byte × State :=
  (Config.freeByte s.draws, { s with draws := s.draws + 1 })

/-- Whether a transaction asserts the memory-request line (20_memory R70). -/
def BusKind.memoryRequest : BusKind → Bool
  | .m1 => true
  | .mr => true
  | .mw => true
  | .ior => false
  | .iow => false

/-- Whether a transaction asserts the IO-request line (20_memory R70): the device's `isIO`. -/
def BusKind.ioRequest : BusKind → Bool
  | .m1 => false
  | .mr => false
  | .mw => false
  | .ior => true
  | .iow => true

/-- Whether a transaction asserts the read line (20_memory R70). -/
def BusKind.readLine : BusKind → Bool
  | .m1 => true
  | .mr => true
  | .mw => false
  | .ior => true
  | .iow => false

/-- Whether a transaction asserts the write line (20_memory R70): the device's `isWrite`. -/
def BusKind.writeLine : BusKind → Bool
  | .m1 => false
  | .mr => false
  | .mw => true
  | .ior => false
  | .iow => true

/-- The HALT output pin (10_state R55). -/
def State.haltPin (s : State) : Bool := s.halted

/-! ### The stack (20_memory R80, R81) -/

/-- `Push`: the high byte at SP - 1, then the low byte at SP - 2. -/
def State.push (s : State) (v : Word) : State :=
  let s1 := { s with sp := s.sp - 1 }
  let s2 := s1.writeAt s1.sp (hiByte v)
  let s3 := { s2 with sp := s2.sp - 1 }
  s3.writeAt s3.sp (loByte v)

/-- `Pop`: the low byte at SP, then the high byte at SP + 1. -/
def State.pop (s : State) : Word × State :=
  let lo := s.byteAt s.sp
  let s1 := { s.readAt s.sp with sp := s.sp + 1 }
  let hi := s1.byteAt s1.sp
  let s2 := { s1.readAt s1.sp with sp := s1.sp + 1 }
  (mkWord hi lo, s2)

/-! ### The step's result -/

/-- The T-states a handler returns (60_exceptions R421). -/
def State.took (s : State) (n : Nat) : State := { s with tstates := some n }

/-- Add the T-states of an ignored index prefix to what an instruction returns (30_encoding R112 to R114). -/
def Result.addT (o : Result) (n : Nat) : Result :=
  match o with
  | .next t => .next { t with tstates := t.tstates.map (· + n) }
  | .fault r => .fault r
  | .refused r => .refused r

/-! ### Interrupts (60_exceptions R430 to R434) -/

/-- What both acceptances begin with: a halted core leaves the HALT byte, the acceptance M1 cycle counts R,
and PC is pushed (60_exceptions R430, R432). -/
def State.enterInterrupt (s : State) : State :=
  let s1 := if s.halted then { s with halted := false, pc := s.pc + 1 } else s
  let s2 := s1.rInc
  s2.push s2.pc

/-- `AcceptNMI`: IFF1 is cleared, IFF2 keeps the enable, PC goes to 0x0066 (60_exceptions R430). -/
def State.acceptNmi (s : State) : State :=
  let s1 := { s with nmiPending := false }.enterInterrupt
  { s1 with iff1 := false, pc := 0x0066 }.took 11

/-- `Vector38`: interrupt modes 0 and 1 (60_exceptions R433). -/
def State.vector38 (s : State) : State := { s with pc := 0x0038 }.took 13

/-- `VectorIM2`: the vector is the word at I:bus_byte (60_exceptions R434). -/
def State.vectorIm2 (s : State) (busByte : Byte) : State :=
  let v := mkWord s.i busByte
  let s1 := { s with draws := s.draws + 1 }
  { s1.readWordAt v with pc := s1.wordAt v }.took 19

/-- `AcceptINT`: IFF1 and IFF2 are cleared, then the interrupt mode gives PC (60_exceptions R432). -/
def State.acceptInt (s : State) (busByte : Byte) : State :=
  let s1 := s.enterInterrupt
  let s2 := { s1 with iff1 := false, iff2 := false }
  match s2.im with
  | .im0 => s2.vector38
  | .im1 => s2.vector38
  | .im2 => s2.vectorIm2 busByte

/-- The return of RETN and RETI: PC is popped and IFF1 takes IFF2's value (48_jump_call R371, R372). -/
def State.returnFromInterrupt (s : State) : State :=
  let (pc, s1) := s.pop
  { s1 with pc := pc, iff1 := s.iff2 }

/-! ### Faults (60_exceptions R440 to R442) -/

/-- The code of a fault (60_exceptions R440). -/
def FaultKind.code : FaultKind → Nat
  | .invalidOpcode => 1
  | .unimplementedUndocumented => 2

/-- The opcode bytes the step has fetched so far, oldest first: the data of its M1 transactions. -/
def State.fetchedOpcodes (s : State) : List Byte :=
  s.bus.filterMap fun ev => if ev.kind = .m1 then some ev.data else none

/-- The address of the step's first byte: the address of its first transaction. -/
def State.firstFetch (s : State) : Word :=
  match s.bus with
  | [] => s.pc
  | ev :: _ => ev.addr

/-- Set the fault record from the transactions of the step and return no T-states (60_exceptions R441,
R442). `settleFault` then restores the rest of the state. -/
def State.raise (s : State) (kind : FaultKind) : State :=
  { s with
    fault := some { kind := kind, pc := s.firstFetch, bytes := s.fetchedOpcodes }
    tstates := none }

/-- The end of a faulting instruction step: every register and control field keeps its value `s` from the
start of the step, the M1 reads stay performed (60_exceptions R441). -/
def settleFault (s : State) (o : Result) : Result :=
  match o with
  | .next t =>
    match t.fault with
    | some rec => .next { s with fault := some rec, bus := t.bus, tstates := none, draws := t.draws }
    | none => .next t
  | .fault r => .fault r
  | .refused r => .refused r

/-! ### The parts of a step that are no instruction (60_exceptions R420) -/

/-- No transaction and no cost of this step yet. -/
def State.beginStep (s : State) : State := { s with bus := [], tstates := none }

/-- Whether the maskable interrupt is accepted (60_exceptions R432). -/
def State.acceptsInt (s : State) : Bool := s.intLine && s.iff1 && s.eiDelay == 0

/-- The EI-delay decrement (60_exceptions R425). -/
def State.tickEi (s : State) : State := { s with eiDelay := s.eiDelay - 1 }

/-- A halted step: R counts, nothing else (60_exceptions R426). -/
def State.haltedStep (s : State) : State := s.rInc.took 4

end Sys2Proof.Machine
end

