-- ==== Sys2Proof/Machine/Flags.lean ====
section
/-! DEFINITION. The flags: every flag function of 00_scope R13, 43_alu8, 44_general, 45_alu16,
46_rotate_shift, 47_bit and 49_io, as functions of bytes and words. Arithmetic is exact on integers and is
narrowed at the end. -/

namespace Sys2Proof.Machine

/-! ### The flag byte (10_state R38) -/

/-- The flag byte S Z Y H X PV N C. -/
def mkFlags (s z y h x pv n c : Bool) : Byte :=
  BitVec.ofBool s ++ BitVec.ofBool z ++ BitVec.ofBool y ++ BitVec.ofBool h ++
    BitVec.ofBool x ++ BitVec.ofBool pv ++ BitVec.ofBool n ++ BitVec.ofBool c

/-- F.S. -/
def flagS (f : Byte) : Bool := f.getLsbD 7

/-- F.Z. -/
def flagZ (f : Byte) : Bool := f.getLsbD 6

/-- F.Y, bit 5. -/
def flagY (f : Byte) : Bool := f.getLsbD 5

/-- F.H. -/
def flagH (f : Byte) : Bool := f.getLsbD 4

/-- F.X, bit 3. -/
def flagX (f : Byte) : Bool := f.getLsbD 3

/-- F.PV. -/
def flagPV (f : Byte) : Bool := f.getLsbD 2

/-- F.N. -/
def flagN (f : Byte) : Bool := f.getLsbD 1

/-- F.C. -/
def flagC (f : Byte) : Bool := f.getLsbD 0

/-- `P`: even parity gives 1 (00_scope R13). -/
def parity (v : Byte) : Bool :=
  !(v.getLsbD 0 ^^ v.getLsbD 1 ^^ v.getLsbD 2 ^^ v.getLsbD 3 ^^
    v.getLsbD 4 ^^ v.getLsbD 5 ^^ v.getLsbD 6 ^^ v.getLsbD 7)

/-- `SZXY(v)` with the other four flags given (00_scope R13). -/
def flagsSZXY (v : Byte) (h pv n c : Bool) : Byte :=
  mkFlags (v.getLsbD 7) (v == 0) (v.getLsbD 5) h (v.getLsbD 3) pv n c

/-- `SZXYP(v)` with the other three flags given (00_scope R13). -/
def flagsSZXYP (v : Byte) (h n c : Bool) : Byte := flagsSZXY v h (parity v) n c

/-- The flag byte with Y and X replaced. -/
def withYX (f : Byte) (y x : Bool) : Byte :=
  mkFlags (flagS f) (flagZ f) y (flagH f) x (flagPV f) (flagN f) (flagC f)

/-! ### 8-bit arithmetic (43_alu8 R230, R231) -/

/-- `ADD8(a, b, c)`: the result and the flags (43_alu8 R230). -/
def add8 (a b : Byte) (c : Bool) : Byte × Byte :=
  let t := a.toNat + b.toNat + c.toNat
  let res := BitVec.ofNat 8 t
  let h := decide (a.toNat % 16 + b.toNat % 16 + c.toNat > 15)
  let pv := (a.getLsbD 7 == b.getLsbD 7) && (res.getLsbD 7 != a.getLsbD 7)
  (res, flagsSZXY res h pv false (decide (t > 255)))

/-- `SUB8(a, b, c)`: the result and the flags (43_alu8 R231). -/
def sub8 (a b : Byte) (c : Bool) : Byte × Byte :=
  let t : Int := (a.toNat : Int) - b.toNat - c.toNat
  let res := BitVec.ofInt 8 t
  let h := decide (((a.toNat % 16 : Nat) : Int) - (b.toNat % 16 : Nat) - c.toNat < 0)
  let pv := (a.getLsbD 7 != b.getLsbD 7) && (res.getLsbD 7 != a.getLsbD 7)
  (res, flagsSZXY res h pv true (decide (t < 0)))

/-- The flags of AND, XOR and OR for a result: H is given, N and C are 0 (43_alu8 R237 to R239). -/
def logicFlags (res : Byte) (h : Bool) : Byte := flagsSZXYP res h false false

/-- The flags of CP: those of SUB8 with Y and X from the operand (43_alu8 R240). -/
def cpFlags (a v : Byte) : Byte := withYX (sub8 a v false).2 (v.getLsbD 5) (v.getLsbD 3)

/-- INC: the result and the flags; C is kept (43_alu8 R241). -/
def inc8 (v f : Byte) : Byte × Byte :=
  let res := v + 1
  (res, flagsSZXY res (v.toNat % 16 == 15) (v == 0x7F) false (flagC f))

/-- DEC: the result and the flags; C is kept (43_alu8 R242). -/
def dec8 (v f : Byte) : Byte × Byte :=
  let res := v - 1
  (res, flagsSZXY res (v.toNat % 16 == 0) (v == 0x80) true (flagC f))

/-- The eight accumulator operations (43_alu8 R232). -/
inductive AluOp where
  | add | adc | sub | sbc | and | xor | or | cp
  deriving DecidableEq, Repr

/-- An accumulator operation: the new A and the new F from A, the operand and F (43_alu8 R233 to R240). -/
def alu8 (op : AluOp) (a v f : Byte) : Byte × Byte :=
  match op with
  | .add => add8 a v false
  | .adc => add8 a v (flagC f)
  | .sub => sub8 a v false
  | .sbc => sub8 a v (flagC f)
  | .and => (a &&& v, logicFlags (a &&& v) true)
  | .xor => (a ^^^ v, logicFlags (a ^^^ v) false)
  | .or => (a ||| v, logicFlags (a ||| v) false)
  | .cp => (a, cpFlags a v)

/-! ### DAA (44_general R260) -/

/-- The decision table of DAA, row by row: the correction and the new F.C from F.C, A[7:4], F.H, A[3:0]. -/
def daaTable (c : Bool) (hi : Nat) (h : Bool) (lo : Nat) : Byte × Bool :=
  if !c && decide (hi ≤ 9) && !h && decide (lo ≤ 9) then (0x00, false)
  else if !c && decide (hi ≤ 9) && h && decide (lo ≤ 9) then (0x06, false)
  else if !c && decide (hi ≤ 8) && decide (10 ≤ lo) then (0x06, false)
  else if !c && decide (10 ≤ hi) && !h && decide (lo ≤ 9) then (0x60, true)
  else if !c && decide (9 ≤ hi) && decide (10 ≤ lo) then (0x66, true)
  else if !c && decide (10 ≤ hi) && h && decide (lo ≤ 9) then (0x66, true)
  else if c && !h && decide (lo ≤ 9) then (0x60, true)
  else if c && h && decide (lo ≤ 9) then (0x66, true)
  else (0x66, true)

/-- DAA: the new A and the new F (44_general R260). -/
def daa8 (a f : Byte) : Byte × Byte :=
  let hi := a.toNat / 16
  let lo := a.toNat % 16
  let (corr, newC) := daaTable (flagC f) hi (flagH f) lo
  let newH := if flagN f then flagH f && decide (lo < 6) else decide (lo > 9)
  let res := if flagN f then a - corr else a + corr
  (res, flagsSZXYP res newH (flagN f) newC)

/-! ### 16-bit arithmetic (45_alu16 R290, R291) -/

/-- `ADD16(a, b)`: the result and the flags; S, Z and PV are kept (45_alu16 R290). -/
def add16 (a b : Word) (f : Byte) : Word × Byte :=
  let t := a.toNat + b.toNat
  let res := BitVec.ofNat 16 t
  let h := decide (a.toNat % 4096 + b.toNat % 4096 > 4095)
  (res, mkFlags (flagS f) (flagZ f) (res.getLsbD 13) h (res.getLsbD 11) (flagPV f) false (decide (t > 65535)))

/-- `ADC16(a, b, c)`: the result and the flags (45_alu16 R291). -/
def adc16 (a b : Word) (c : Bool) : Word × Byte :=
  let t := a.toNat + b.toNat + c.toNat
  let res := BitVec.ofNat 16 t
  let h := decide (a.toNat % 4096 + b.toNat % 4096 + c.toNat > 4095)
  let pv := (a.getLsbD 15 == b.getLsbD 15) && (res.getLsbD 15 != a.getLsbD 15)
  (res, mkFlags (res.getLsbD 15) (res == 0) (res.getLsbD 13) h (res.getLsbD 11) pv false (decide (t > 65535)))

/-- `SBC16(a, b, c)`: the result and the flags (45_alu16 R291). -/
def sbc16 (a b : Word) (c : Bool) : Word × Byte :=
  let t : Int := (a.toNat : Int) - b.toNat - c.toNat
  let res := BitVec.ofInt 16 t
  let h := decide (((a.toNat % 4096 : Nat) : Int) - (b.toNat % 4096 : Nat) - c.toNat < 0)
  let pv := (a.getLsbD 15 != b.getLsbD 15) && (res.getLsbD 15 != a.getLsbD 15)
  (res, mkFlags (res.getLsbD 15) (res == 0) (res.getLsbD 13) h (res.getLsbD 11) pv true (decide (t < 0)))

/-! ### Rotates and shifts (46_rotate_shift R315 to R322) -/

/-- The eight CB rotates and shifts (30_encoding R102). -/
inductive Rot where
  | rlc | rrc | rl | rr | sla | sra | sll | srl
  deriving DecidableEq, Repr

/-- A rotate or shift: the result and the bit shifted out, from the operand and F.C. -/
def rot8 (k : Rot) (v : Byte) (c : Bool) : Byte × Bool :=
  let out7 := v.getLsbD 7
  let out0 := v.getLsbD 0
  let carryIn : Byte := (BitVec.ofBool c).zeroExtend 8
  match k with
  | .rlc => ((v <<< 1) ||| (BitVec.ofBool out7).zeroExtend 8, out7)
  | .rrc => ((v >>> 1) ||| ((BitVec.ofBool out0).zeroExtend 8 <<< 7), out0)
  | .rl => ((v <<< 1) ||| carryIn, out7)
  | .rr => ((v >>> 1) ||| (carryIn <<< 7), out0)
  | .sla => (v <<< 1, out7)
  | .sra => ((v >>> 1) ||| (v &&& 0x80), out0)
  | .sll => ((v <<< 1) ||| 1, out7)
  | .srl => (v >>> 1, out0)

/-- The flags of the CB rotates and shifts (46_rotate_shift R314). -/
def rotFlags (res : Byte) (c : Bool) : Byte := flagsSZXYP res false false c

/-- The flags of RLCA, RRCA, RLA and RRA: S, Z and PV are kept (46_rotate_shift, accumulator rotates). -/
def rotAFlags (res : Byte) (c : Bool) (f : Byte) : Byte :=
  mkFlags (flagS f) (flagZ f) (res.getLsbD 5) false (res.getLsbD 3) (flagPV f) false c

/-! ### Bits (47_bit) -/

/-- The byte with only bit b set. -/
def bitMask (b : BitVec 3) : Byte := (1 : Byte) <<< b.toNat

/-- `BITF(v, b, xy)`: C is kept (47_bit R340). -/
def bitFlags (v : Byte) (b : BitVec 3) (xy f : Byte) : Byte :=
  let t := v.getLsbD b.toNat
  mkFlags (b == 7 && t) (!t) (xy.getLsbD 5) true (xy.getLsbD 3) (!t) false (flagC f)

/-! ### Complement and carry flags (44_general R261, R263 to R265) -/

/-- The flags of CPL: S, Z, PV and C are kept (44_general R261). -/
def cplFlags (res f : Byte) : Byte :=
  mkFlags (flagS f) (flagZ f) (res.getLsbD 5) true (res.getLsbD 3) (flagPV f) true (flagC f)

/-- Y and X after SCF and CCF (44_general R265). With `chipQ` each is one of A[n] and (A or F)[n]; which one
is a bit of the free byte. -/
def scfYX (mode : ScfFlags) (a f free : Byte) : Bool × Bool :=
  match mode with
  | .fromA => (a.getLsbD 5, a.getLsbD 3)
  | .chipQ =>
    (if free.getLsbD 5 then (a ||| f).getLsbD 5 else a.getLsbD 5,
     if free.getLsbD 3 then (a ||| f).getLsbD 3 else a.getLsbD 3)

/-- The flags of SCF: S, Z and PV are kept (44_general R264). -/
def scfFlagByte (yx : Bool × Bool) (f : Byte) : Byte :=
  mkFlags (flagS f) (flagZ f) yx.1 false yx.2 (flagPV f) false true

/-- The flags of CCF: H takes the old carry, S, Z and PV are kept (44_general R263). -/
def ccfFlagByte (yx : Bool × Bool) (f : Byte) : Byte :=
  mkFlags (flagS f) (flagZ f) yx.1 (flagC f) yx.2 (flagPV f) false (!flagC f)

/-! ### Loads and block instructions -/

/-- The flags of LD A,I and LD A,R: PV = IFF2, C is kept (40_load8 R152, R153). -/
def loadIrFlags (v : Byte) (iff2 : Bool) (f : Byte) : Byte := flagsSZXY v false iff2 false (flagC f)

/-- The flags of LDI and LDD: S, Z and C are kept (42_exchange_block R205). -/
def blockLoadFlags (a v : Byte) (bc : Word) (f : Byte) : Byte :=
  let n := a + v
  mkFlags (flagS f) (flagZ f) (n.getLsbD 1) false (n.getLsbD 3) (bc != 0) false (flagC f)

/-- The flags of CPI and CPD: C is kept (42_exchange_block R209). -/
def blockCompareFlags (a v : Byte) (bc : Word) (f : Byte) : Byte :=
  let r := a - v
  let h := decide (a.toNat % 16 < v.toNat % 16)
  let n := r - (BitVec.ofBool h).zeroExtend 8
  mkFlags (r.getLsbD 7) (r == 0) (n.getLsbD 1) h (n.getLsbD 3) (bc != 0) true (flagC f)

/-- `IOFLAGS(v, k)` for the decremented B (49_io, block I/O). -/
def blockIoFlags (v b : Byte) (k : Nat) : Byte :=
  let carry := decide (k > 255)
  mkFlags (b.getLsbD 7) (b == 0) (b.getLsbD 5) carry (b.getLsbD 3)
    (parity (BitVec.ofNat 8 (k % 8) ^^^ b)) (v.getLsbD 7) carry

/-- The flags of IN r,(C) and IN F,(C): C is kept (49_io R391, R392). -/
def inFlags (v f : Byte) : Byte := flagsSZXYP v false false (flagC f)

/-- The flags of a repeating block iteration (42_exchange_block R213): `pc` is the rewound PC, `io` says
whether the instruction is a block I/O one, `free` is the byte its open H and PV come from. -/
def repeatFlagByte (mode : RepeatFlags) (io : Bool) (pc : Word) (free f : Byte) : Byte :=
  match mode with
  | .classic => f
  | .chip2018 =>
    mkFlags (flagS f) (flagZ f) (pc.getLsbD 13) (if io then flagH free else flagH f) (pc.getLsbD 11)
      (if io then flagPV free else flagPV f) (flagN f) (flagC f)

/-! ### Conditions (10_state R41) -/

/-- The condition cc on F. -/
def condHolds (cc : Cond) (f : Byte) : Bool :=
  match cc with
  | .nz => !flagZ f
  | .z => flagZ f
  | .nc => !flagC f
  | .c => flagC f
  | .po => !flagPV f
  | .pe => flagPV f
  | .p => !flagS f
  | .m => flagS f

/-- The condition of JR cc on F. -/
def jrCondHolds (cc : JrCond) (f : Byte) : Bool :=
  match cc with
  | .nz => !flagZ f
  | .z => flagZ f
  | .nc => !flagC f
  | .c => flagC f

end Sys2Proof.Machine
end

