-- ==== Sys2Proof/Machine/Operands.lean ====
section
/-! DEFINITION. The operand forms: what an instruction reads, and the read-modify-write forms.

A form is written once here for every instruction that has it; the families give each instruction its
operation and its T-states. -/

namespace Sys2Proof.Machine

/-- The effective address XR + d mod 2^16 (30_encoding R103). -/
def State.ea (s : State) (x : XR) (d : Byte) : Word := s.xr x + sext d

/-- A register with H and L read as XRH and XRL (40_load8 R156). -/
def State.reg8Xr (s : State) (x : XR) (r : Reg8) : Byte :=
  match r with
  | .h => s.xrHalf x .hi
  | .l => s.xrHalf x .lo
  | .b => s.b
  | .c => s.c
  | .d => s.d
  | .e => s.e
  | .a => s.a

/-- Write a register with H and L standing for XRH and XRL (40_load8 R156). -/
def State.setReg8Xr (s : State) (x : XR) (r : Reg8) (v : Byte) : State :=
  match r with
  | .h => s.setXrHalf x .hi v
  | .l => s.setXrHalf x .lo v
  | .b => { s with b := v }
  | .c => { s with c := v }
  | .d => { s with d := v }
  | .e => { s with e := v }
  | .a => { s with a := v }

/-- Write F. -/
def State.setF (s : State) (f : Byte) : State := { s with f := f }

/-- An accumulator operation with its operand: A and F are written (43_alu8 R233 to R240). -/
def State.aluA (s : State) (op : AluOp) (v : Byte) : State :=
  let (a, f) := alu8 op s.a v s.f
  { s with a := a, f := f }

/-- Read a byte of memory, compute a byte and the flags from it and F, write both back
(43_alu8 R241, 46_rotate_shift R314). -/
def State.modifyAt (s : State) (addr : Word) (op : Byte → Byte → Byte × Byte) : State :=
  let (res, f) := op (s.byteAt addr) s.f
  ((s.readAt addr).writeAt addr res).setF f

/-- A CB rotate or shift with its flags, as an operation on an operand and F (46_rotate_shift R314). -/
def rotOp (k : Rot) (v f : Byte) : Byte × Byte :=
  let (res, c) := rot8 k v (flagC f)
  (res, rotFlags res c)

/-- RES b: no flag changes (47_bit R346). -/
def resOp (b : BitVec 3) (v f : Byte) : Byte × Byte := (v &&& ~~~(bitMask b), f)

/-- SET b: no flag changes (47_bit R343). -/
def setOp (b : BitVec 3) (v f : Byte) : Byte × Byte := (v ||| bitMask b, f)

/-- Apply an operation to a register and F. -/
def State.modifyReg (s : State) (r : Reg8) (op : Byte → Byte → Byte × Byte) : State :=
  let (res, f) := op (s.reg8 r) s.f
  (s.setReg8 r res).setF f

/-- Apply an operation to a byte of an index register and F (43_alu8 R241). -/
def State.modifyXrHalf (s : State) (x : XR) (p : Half) (op : Byte → Byte → Byte × Byte) : State :=
  let (res, f) := op (s.xrHalf x p) s.f
  (s.setXrHalf x p res).setF f

/-- Apply an operation to (XR+d) and copy the result to a register as well (46_rotate_shift R314). -/
def State.modifyAtCopy (s : State) (addr : Word) (r : Reg8) (op : Byte → Byte → Byte × Byte) : State :=
  let res := (op (s.byteAt addr) s.f).1
  (s.modifyAt addr op).setReg8 r res

/-- Rewind PC by 2 and take 21 T-states where a block instruction repeats, 16 where it does not; the flags of a
repeating iteration are those of BLOCK_REPEAT_FLAGS (42_exchange_block R206, R213). -/
def State.repeatBlock (s : State) (io again : Bool) : State :=
  if again then
    let pc := s.pc - 2
    match s.params.repeatFlags with
    | .classic => { s with pc := pc, f := repeatFlagByte .classic io pc 0 s.f }.took 21
    | .chip2018 =>
      let (free, s1) := s.drawByte
      { s1 with pc := pc, f := repeatFlagByte .chip2018 io pc free s.f }.took 21
  else s.took 16

end Sys2Proof.Machine
end

