-- ==== Sys2Proof/Machine/Alu16.lean ====
section
/-! DEFINITION. The 16-bit arithmetic instructions (45_alu16 R292 to R299). -/

namespace Sys2Proof.Machine

/-- ADD HL,ss (45_alu16 R292). -/
def execAddHlPair (rr : Pair) (s : State) : Result :=
  let (res, f) := add16 s.hl (s.pair rr) s.f
  .next (((s.setHl res).setF f).took 11)

/-- ADC HL,ss (45_alu16 R293). -/
def execAdcHlPair (rr : Pair) (s : State) : Result :=
  let (res, f) := adc16 s.hl (s.pair rr) (flagC s.f)
  .next (((s.setHl res).setF f).took 15)

/-- SBC HL,ss (45_alu16 R294). -/
def execSbcHlPair (rr : Pair) (s : State) : Result :=
  let (res, f) := sbc16 s.hl (s.pair rr) (flagC s.f)
  .next (((s.setHl res).setF f).took 15)

/-- ADD XR,pp: HL is neither read nor written (45_alu16 R295). -/
def execAddXrPair (x : XR) (pp : IdxPair) (s : State) : Result :=
  let (res, f) := add16 (s.xr x) (s.idxPair x pp) s.f
  .next (((s.setXr x res).setF f).took 15)

/-- INC ss: no flag changes (45_alu16 R296). -/
def execIncPair (rr : Pair) (s : State) : Result := .next ((s.setPair rr (s.pair rr + 1)).took 6)

/-- INC XR (45_alu16 R297). -/
def execIncXr (x : XR) (s : State) : Result := .next ((s.setXr x (s.xr x + 1)).took 10)

/-- DEC ss: no flag changes (45_alu16 R298). -/
def execDecPair (rr : Pair) (s : State) : Result := .next ((s.setPair rr (s.pair rr - 1)).took 6)

/-- DEC XR (45_alu16 R299). -/
def execDecXr (x : XR) (s : State) : Result := .next ((s.setXr x (s.xr x - 1)).took 10)

end Sys2Proof.Machine
end

