-- ==== Sys2Proof/Machine/Alu8.lean ====
section
/-! DEFINITION. The 8-bit arithmetic and logic instructions (43_alu8 R232 to R242). -/

namespace Sys2Proof.Machine

/-- ADD A,r (43_alu8 R233). -/
def execAddReg (r : Reg8) (s : State) : Result := .next ((s.aluA .add (s.reg8 r)).took 4)

/-- ADD A,n (43_alu8 R233). -/
def execAddN (n : Byte) (s : State) : Result := .next ((s.aluA .add n).took 7)

/-- ADD A,(HL) (43_alu8 R233). -/
def execAddAtHl (s : State) : Result := .next (((s.readAt s.hl).aluA .add (s.byteAt s.hl)).took 7)

/-- ADD A,(XR+d) (43_alu8 R233). -/
def execAddAtXr (x : XR) (d : Byte) (s : State) : Result :=
  .next (((s.readAt (s.ea x d)).aluA .add (s.byteAt (s.ea x d))).took 19)

/-- ADD A,XRH and ADD A,XRL (43_alu8 R233). -/
def execAddXrHalf (x : XR) (p : Half) (s : State) : Result := .next ((s.aluA .add (s.xrHalf x p)).took 8)

/-- ADC A,r (43_alu8 R234). -/
def execAdcReg (r : Reg8) (s : State) : Result := .next ((s.aluA .adc (s.reg8 r)).took 4)

/-- ADC A,n (43_alu8 R234). -/
def execAdcN (n : Byte) (s : State) : Result := .next ((s.aluA .adc n).took 7)

/-- ADC A,(HL) (43_alu8 R234). -/
def execAdcAtHl (s : State) : Result := .next (((s.readAt s.hl).aluA .adc (s.byteAt s.hl)).took 7)

/-- ADC A,(XR+d) (43_alu8 R234). -/
def execAdcAtXr (x : XR) (d : Byte) (s : State) : Result :=
  .next (((s.readAt (s.ea x d)).aluA .adc (s.byteAt (s.ea x d))).took 19)

/-- ADC A,XRH and ADC A,XRL (43_alu8 R234). -/
def execAdcXrHalf (x : XR) (p : Half) (s : State) : Result := .next ((s.aluA .adc (s.xrHalf x p)).took 8)

/-- SUB r (43_alu8 R235). -/
def execSubReg (r : Reg8) (s : State) : Result := .next ((s.aluA .sub (s.reg8 r)).took 4)

/-- SUB n (43_alu8 R235). -/
def execSubN (n : Byte) (s : State) : Result := .next ((s.aluA .sub n).took 7)

/-- SUB (HL) (43_alu8 R235). -/
def execSubAtHl (s : State) : Result := .next (((s.readAt s.hl).aluA .sub (s.byteAt s.hl)).took 7)

/-- SUB (XR+d) (43_alu8 R235). -/
def execSubAtXr (x : XR) (d : Byte) (s : State) : Result :=
  .next (((s.readAt (s.ea x d)).aluA .sub (s.byteAt (s.ea x d))).took 19)

/-- SUB XRH and SUB XRL (43_alu8 R235). -/
def execSubXrHalf (x : XR) (p : Half) (s : State) : Result := .next ((s.aluA .sub (s.xrHalf x p)).took 8)

/-- SBC A,r (43_alu8 R236). -/
def execSbcReg (r : Reg8) (s : State) : Result := .next ((s.aluA .sbc (s.reg8 r)).took 4)

/-- SBC A,n (43_alu8 R236). -/
def execSbcN (n : Byte) (s : State) : Result := .next ((s.aluA .sbc n).took 7)

/-- SBC A,(HL) (43_alu8 R236). -/
def execSbcAtHl (s : State) : Result := .next (((s.readAt s.hl).aluA .sbc (s.byteAt s.hl)).took 7)

/-- SBC A,(XR+d) (43_alu8 R236). -/
def execSbcAtXr (x : XR) (d : Byte) (s : State) : Result :=
  .next (((s.readAt (s.ea x d)).aluA .sbc (s.byteAt (s.ea x d))).took 19)

/-- SBC A,XRH and SBC A,XRL (43_alu8 R236). -/
def execSbcXrHalf (x : XR) (p : Half) (s : State) : Result := .next ((s.aluA .sbc (s.xrHalf x p)).took 8)

/-- AND r (43_alu8 R237). -/
def execAndReg (r : Reg8) (s : State) : Result := .next ((s.aluA .and (s.reg8 r)).took 4)

/-- AND n (43_alu8 R237). -/
def execAndN (n : Byte) (s : State) : Result := .next ((s.aluA .and n).took 7)

/-- AND (HL) (43_alu8 R237). -/
def execAndAtHl (s : State) : Result := .next (((s.readAt s.hl).aluA .and (s.byteAt s.hl)).took 7)

/-- AND (XR+d) (43_alu8 R237). -/
def execAndAtXr (x : XR) (d : Byte) (s : State) : Result :=
  .next (((s.readAt (s.ea x d)).aluA .and (s.byteAt (s.ea x d))).took 19)

/-- AND XRH and AND XRL (43_alu8 R237). -/
def execAndXrHalf (x : XR) (p : Half) (s : State) : Result := .next ((s.aluA .and (s.xrHalf x p)).took 8)

/-- XOR r (43_alu8 R238). -/
def execXorReg (r : Reg8) (s : State) : Result := .next ((s.aluA .xor (s.reg8 r)).took 4)

/-- XOR n (43_alu8 R238). -/
def execXorN (n : Byte) (s : State) : Result := .next ((s.aluA .xor n).took 7)

/-- XOR (HL) (43_alu8 R238). -/
def execXorAtHl (s : State) : Result := .next (((s.readAt s.hl).aluA .xor (s.byteAt s.hl)).took 7)

/-- XOR (XR+d) (43_alu8 R238). -/
def execXorAtXr (x : XR) (d : Byte) (s : State) : Result :=
  .next (((s.readAt (s.ea x d)).aluA .xor (s.byteAt (s.ea x d))).took 19)

/-- XOR XRH and XOR XRL (43_alu8 R238). -/
def execXorXrHalf (x : XR) (p : Half) (s : State) : Result := .next ((s.aluA .xor (s.xrHalf x p)).took 8)

/-- OR r (43_alu8 R239). -/
def execOrReg (r : Reg8) (s : State) : Result := .next ((s.aluA .or (s.reg8 r)).took 4)

/-- OR n (43_alu8 R239). -/
def execOrN (n : Byte) (s : State) : Result := .next ((s.aluA .or n).took 7)

/-- OR (HL) (43_alu8 R239). -/
def execOrAtHl (s : State) : Result := .next (((s.readAt s.hl).aluA .or (s.byteAt s.hl)).took 7)

/-- OR (XR+d) (43_alu8 R239). -/
def execOrAtXr (x : XR) (d : Byte) (s : State) : Result :=
  .next (((s.readAt (s.ea x d)).aluA .or (s.byteAt (s.ea x d))).took 19)

/-- OR XRH and OR XRL (43_alu8 R239). -/
def execOrXrHalf (x : XR) (p : Half) (s : State) : Result := .next ((s.aluA .or (s.xrHalf x p)).took 8)

/-- CP r (43_alu8 R240). -/
def execCpReg (r : Reg8) (s : State) : Result := .next ((s.aluA .cp (s.reg8 r)).took 4)

/-- CP n (43_alu8 R240). -/
def execCpN (n : Byte) (s : State) : Result := .next ((s.aluA .cp n).took 7)

/-- CP (HL) (43_alu8 R240). -/
def execCpAtHl (s : State) : Result := .next (((s.readAt s.hl).aluA .cp (s.byteAt s.hl)).took 7)

/-- CP (XR+d) (43_alu8 R240). -/
def execCpAtXr (x : XR) (d : Byte) (s : State) : Result :=
  .next (((s.readAt (s.ea x d)).aluA .cp (s.byteAt (s.ea x d))).took 19)

/-- CP XRH and CP XRL (43_alu8 R240). -/
def execCpXrHalf (x : XR) (p : Half) (s : State) : Result := .next ((s.aluA .cp (s.xrHalf x p)).took 8)

/-- INC r (43_alu8 R241). -/
def execIncReg (r : Reg8) (s : State) : Result := .next ((s.modifyReg r inc8).took 4)

/-- INC (HL) (43_alu8 R241). -/
def execIncAtHl (s : State) : Result := .next ((s.modifyAt s.hl inc8).took 11)

/-- INC (XR+d) (43_alu8 R241). -/
def execIncAtXr (x : XR) (d : Byte) (s : State) : Result := .next ((s.modifyAt (s.ea x d) inc8).took 23)

/-- INC XRH and INC XRL (43_alu8 R241). -/
def execIncXrHalf (x : XR) (p : Half) (s : State) : Result := .next ((s.modifyXrHalf x p inc8).took 8)

/-- DEC r (43_alu8 R242). -/
def execDecReg (r : Reg8) (s : State) : Result := .next ((s.modifyReg r dec8).took 4)

/-- DEC (HL) (43_alu8 R242). -/
def execDecAtHl (s : State) : Result := .next ((s.modifyAt s.hl dec8).took 11)

/-- DEC (XR+d) (43_alu8 R242). -/
def execDecAtXr (x : XR) (d : Byte) (s : State) : Result := .next ((s.modifyAt (s.ea x d) dec8).took 23)

/-- DEC XRH and DEC XRL (43_alu8 R242). -/
def execDecXrHalf (x : XR) (p : Half) (s : State) : Result := .next ((s.modifyXrHalf x p dec8).took 8)

end Sys2Proof.Machine
end

