-- ==== Sys2Proof/Machine/BitOps.lean ====
section
/-! DEFINITION. The bit test, set and reset instructions (47_bit R340 to R348). -/

namespace Sys2Proof.Machine

/-- BIT b,r: Y and X from the register (47_bit R340). -/
def execBitReg (b : BitVec 3) (r : Reg8) (s : State) : Result :=
  .next ((s.setF (bitFlags (s.reg8 r) b (s.reg8 r) s.f)).took 8)

/-- BIT b,(HL): Y and X are each any value, a draw (47_bit R341, log entry 10). -/
def execBitAtHl (b : BitVec 3) (s : State) : Result :=
  let v := s.byteAt s.hl
  let (free, s1) := (s.readAt s.hl).drawByte
  .next ((s1.setF (bitFlags v b free s.f)).took 12)

/-- BIT b,(XR+d), any z: Y and X from the high byte of the address (47_bit R342). -/
def execBitAtXr (x : XR) (d : Byte) (b : BitVec 3) (z : BitVec 3) (s : State) : Result :=
  let addr := s.ea x d
  let _ := z
  .next (((s.readAt addr).setF (bitFlags (s.byteAt addr) b (hiByte addr) s.f)).took 20)

/-- SET b,r (47_bit R343). -/
def execSetReg (b : BitVec 3) (r : Reg8) (s : State) : Result := .next ((s.modifyReg r (setOp b)).took 8)

/-- SET b,(HL): the write happens whatever the bit was (47_bit R344). -/
def execSetAtHl (b : BitVec 3) (s : State) : Result := .next ((s.modifyAt s.hl (setOp b)).took 15)

/-- SET b,(XR+d) (47_bit R345). -/
def execSetAtXr (x : XR) (d : Byte) (b : BitVec 3) (s : State) : Result :=
  .next ((s.modifyAt (s.ea x d) (setOp b)).took 23)

/-- SET b,(XR+d),r: the result also goes to r (47_bit R345). -/
def execSetAtXrReg (x : XR) (d : Byte) (b : BitVec 3) (r : Reg8) (s : State) : Result :=
  .next ((s.modifyAtCopy (s.ea x d) r (setOp b)).took 23)

/-- RES b,r (47_bit R346). -/
def execResReg (b : BitVec 3) (r : Reg8) (s : State) : Result := .next ((s.modifyReg r (resOp b)).took 8)

/-- RES b,(HL): the write happens whatever the bit was (47_bit R347). -/
def execResAtHl (b : BitVec 3) (s : State) : Result := .next ((s.modifyAt s.hl (resOp b)).took 15)

/-- RES b,(XR+d) (47_bit R348). -/
def execResAtXr (x : XR) (d : Byte) (b : BitVec 3) (s : State) : Result :=
  .next ((s.modifyAt (s.ea x d) (resOp b)).took 23)

/-- RES b,(XR+d),r: the result also goes to r (47_bit R348). -/
def execResAtXrReg (x : XR) (d : Byte) (b : BitVec 3) (r : Reg8) (s : State) : Result :=
  .next ((s.modifyAtCopy (s.ea x d) r (resOp b)).took 23)

end Sys2Proof.Machine
end

