-- ==== Sys2Proof/Machine/Exchange.lean ====
section
/-! DEFINITION. The exchanges, the block transfers and the block searches (42_exchange_block R200 to R213). -/

namespace Sys2Proof.Machine

/-- EX DE,HL (42_exchange_block R200). -/
def execExDeHl (s : State) : Result := .next ({ s with d := s.h, e := s.l, h := s.d, l := s.e }.took 4)

/-- EX AF,AF': all eight bits of F move (42_exchange_block R201). -/
def execExAfAf (s : State) : Result :=
  .next ({ s with a := s.a', f := s.f', a' := s.a, f' := s.f }.took 4)

/-- EXX (42_exchange_block R202). -/
def execExx (s : State) : Result :=
  .next ({ s with
    b := s.b', c := s.c', d := s.d', e := s.e', h := s.h', l := s.l'
    b' := s.b, c' := s.c, d' := s.d, e' := s.e, h' := s.h, l' := s.l }.took 4)

/-- The transactions of EX (SP): both bytes read, then the high byte written at SP + 1 and the low byte at
SP (42_exchange_block R203). -/
def State.exchangeTop (s : State) (v : Word) : State :=
  ((s.readWordAt s.sp).writeAt (s.sp + 1) (hiByte v)).writeAt s.sp (loByte v)

/-- EX (SP),HL (42_exchange_block R203). -/
def execExSpHl (s : State) : Result := .next (((s.exchangeTop s.hl).setHl (s.wordAt s.sp)).took 19)

/-- EX (SP),XR (42_exchange_block R204). -/
def execExSpXr (x : XR) (s : State) : Result :=
  .next (((s.exchangeTop (s.xr x)).setXr x (s.wordAt s.sp)).took 23)

/-- One iteration of LDI (`step` = 1) or LDD (`step` = -1), without its cost (42_exchange_block R205,
R207). -/
def State.blockLoad (s : State) (step : Word) : State :=
  let v := s.byteAt s.hl
  let s1 := (s.readAt s.hl).writeAt s.de v
  let s2 := ((s1.setHl (s.hl + step)).setDe (s.de + step)).setBc (s.bc - 1)
  s2.setF (blockLoadFlags s.a v (s.bc - 1) s.f)

/-- One iteration of CPI (`step` = 1) or CPD (`step` = -1), without its cost (42_exchange_block R209,
R211). -/
def State.blockCompare (s : State) (step : Word) : State :=
  let v := s.byteAt s.hl
  let s1 := ((s.readAt s.hl).setHl (s.hl + step)).setBc (s.bc - 1)
  s1.setF (blockCompareFlags s.a v (s.bc - 1) s.f)

/-- LDI (42_exchange_block R205). -/
def execLdi (s : State) : Result := .next ((s.blockLoad 1).took 16)

/-- LDIR: it repeats while BC is not 0 (42_exchange_block R206). -/
def execLdir (s : State) : Result := .next ((s.blockLoad 1).repeatBlock false (s.bc - 1 != 0))

/-- LDD (42_exchange_block R207). -/
def execLdd (s : State) : Result := .next ((s.blockLoad (-1)).took 16)

/-- LDDR (42_exchange_block R208). -/
def execLddr (s : State) : Result := .next ((s.blockLoad (-1)).repeatBlock false (s.bc - 1 != 0))

/-- CPI (42_exchange_block R209). -/
def execCpi (s : State) : Result := .next ((s.blockCompare 1).took 16)

/-- CPIR: it repeats while BC is not 0 and the byte is not found (42_exchange_block R210). -/
def execCpir (s : State) : Result :=
  .next ((s.blockCompare 1).repeatBlock false (s.bc - 1 != 0 && s.a != s.byteAt s.hl))

/-- CPD (42_exchange_block R211). -/
def execCpd (s : State) : Result := .next ((s.blockCompare (-1)).took 16)

/-- CPDR (42_exchange_block R212). -/
def execCpdr (s : State) : Result :=
  .next ((s.blockCompare (-1)).repeatBlock false (s.bc - 1 != 0 && s.a != s.byteAt s.hl))

end Sys2Proof.Machine
end

