-- ==== Sys2Proof/Syntax.lean ====
section
/-! DEFINITION. The instructions: one constructor per row of spec/opcode_table.json, in the table's order.

Each docstring gives the row's form and its rule. `d` and `e` are displacement bytes (read as signed,
30_encoding R103), `n` and `nn` immediates, `b` a bit number, `t` a restart number, `x` the index register
the DD or FD byte selects. `y` is bits 5:3 of the ED opcode byte where several opcodes are one instruction
(the mirrors of 30_encoding R108), `z` is bits 2:0 of the fourth byte of BIT b,(XR+d) (47_bit R342).

The rows of the prefix bytes (log entry 15): `prefixCB`, `prefixED`, `prefixDD`, `prefixFD` and `prefixXrCB`
are a prefix and the opcode byte it selects a table entry with; decoding hands one out only where the table
holds no row of its own for that entry (an unpopulated ED entry, a member of UNDOC_UNIMPL). `prefixXrXr`,
`prefixXrED` and `prefixXrPass` are an index prefix that has no effect on the instruction after it. -/

namespace Sys2Proof

/-- An instruction of the core. -/
inductive Instr where
  /-- NOP: 44_general R266. -/
  | nop
  /-- LD rr,nn: 41_load16 R170. -/
  | ldPairNn (rr : Pair) (nn : Word)
  /-- LD (rr),A (rr = BC, DE): 40_load8 R149. -/
  | ldPtrA (rr : PtrPair)
  /-- LD (nn),HL: 41_load16 R175. -/
  | ldMemHl (nn : Word)
  /-- LD (nn),A: 40_load8 R151. -/
  | ldMemA (nn : Word)
  /-- INC rr: 45_alu16 R296. -/
  | incPair (rr : Pair)
  /-- DEC rr: 45_alu16 R298. -/
  | decPair (rr : Pair)
  /-- INC r: 43_alu8 R241. -/
  | incReg (r : Reg8)
  /-- INC (HL): 43_alu8 R241. -/
  | incAtHl
  /-- DEC r: 43_alu8 R242. -/
  | decReg (r : Reg8)
  /-- DEC (HL): 43_alu8 R242. -/
  | decAtHl
  /-- LD r,n: 40_load8 R141. -/
  | ldRegN (r : Reg8) (n : Byte)
  /-- LD (HL),n: 40_load8 R144. -/
  | ldAtHlN (n : Byte)
  /-- RLCA: 46_rotate_shift R310. -/
  | rlca
  /-- RRCA: 46_rotate_shift R311. -/
  | rrca
  /-- RLA: 46_rotate_shift R312. -/
  | rla
  /-- RRA: 46_rotate_shift R313. -/
  | rra
  /-- DAA: 44_general R260. -/
  | daa
  /-- CPL: 44_general R261. -/
  | cpl
  /-- SCF: 44_general R264. -/
  | scf
  /-- CCF: 44_general R263. -/
  | ccf
  /-- EX AF,AF': 42_exchange_block R201. -/
  | exAfAf
  /-- ADD HL,rr: 45_alu16 R292. -/
  | addHlPair (rr : Pair)
  /-- LD A,(rr) (rr = BC, DE): 40_load8 R148. -/
  | ldAPtr (rr : PtrPair)
  /-- LD HL,(nn): 41_load16 R172. -/
  | ldHlMem (nn : Word)
  /-- LD A,(nn): 40_load8 R150. -/
  | ldAMem (nn : Word)
  /-- DJNZ e: 48_jump_call R366. -/
  | djnz (e : Byte)
  /-- JR e: 48_jump_call R362. -/
  | jr (e : Byte)
  /-- JR cc,e (cc = NZ, Z, NC, C): 48_jump_call R363. -/
  | jrCond (cc : JrCond) (e : Byte)
  /-- LD r,r': 40_load8 R140. -/
  | ldRegReg (r : Reg8) (r' : Reg8)
  /-- LD r,(HL): 40_load8 R142. -/
  | ldRegAtHl (r : Reg8)
  /-- LD (HL),r: 40_load8 R143. -/
  | ldAtHlReg (r : Reg8)
  /-- HALT: 44_general R267. -/
  | halt
  /-- ADD A,r: 43_alu8 R233. -/
  | addReg (r : Reg8)
  /-- ADD A,(HL): 43_alu8 R233. -/
  | addAtHl
  /-- ADD A,n: 43_alu8 R233. -/
  | addN (n : Byte)
  /-- ADC A,r: 43_alu8 R234. -/
  | adcReg (r : Reg8)
  /-- ADC A,(HL): 43_alu8 R234. -/
  | adcAtHl
  /-- ADC A,n: 43_alu8 R234. -/
  | adcN (n : Byte)
  /-- SUB r: 43_alu8 R235. -/
  | subReg (r : Reg8)
  /-- SUB (HL): 43_alu8 R235. -/
  | subAtHl
  /-- SUB n: 43_alu8 R235. -/
  | subN (n : Byte)
  /-- SBC A,r: 43_alu8 R236. -/
  | sbcReg (r : Reg8)
  /-- SBC A,(HL): 43_alu8 R236. -/
  | sbcAtHl
  /-- SBC A,n: 43_alu8 R236. -/
  | sbcN (n : Byte)
  /-- AND r: 43_alu8 R237. -/
  | andReg (r : Reg8)
  /-- AND (HL): 43_alu8 R237. -/
  | andAtHl
  /-- AND n: 43_alu8 R237. -/
  | andN (n : Byte)
  /-- XOR r: 43_alu8 R238. -/
  | xorReg (r : Reg8)
  /-- XOR (HL): 43_alu8 R238. -/
  | xorAtHl
  /-- XOR n: 43_alu8 R238. -/
  | xorN (n : Byte)
  /-- OR r: 43_alu8 R239. -/
  | orReg (r : Reg8)
  /-- OR (HL): 43_alu8 R239. -/
  | orAtHl
  /-- OR n: 43_alu8 R239. -/
  | orN (n : Byte)
  /-- CP r: 43_alu8 R240. -/
  | cpReg (r : Reg8)
  /-- CP (HL): 43_alu8 R240. -/
  | cpAtHl
  /-- CP n: 43_alu8 R240. -/
  | cpN (n : Byte)
  /-- RET cc: 48_jump_call R370. -/
  | retCond (cc : Cond)
  /-- POP qq: 41_load16 R182. -/
  | popPair (qq : StackPair)
  /-- JP cc,nn: 48_jump_call R361. -/
  | jpCond (cc : Cond) (nn : Word)
  /-- JP nn: 48_jump_call R360. -/
  | jp (nn : Word)
  /-- CALL cc,nn: 48_jump_call R368. -/
  | callCond (cc : Cond) (nn : Word)
  /-- PUSH qq: 41_load16 R180. -/
  | pushPair (qq : StackPair)
  /-- RST t: 48_jump_call R373. -/
  | rst (t : BitVec 3)
  /-- RET: 48_jump_call R369. -/
  | ret
  /-- CALL nn: 48_jump_call R367. -/
  | call (nn : Word)
  /-- OUT (n),A: 49_io R397. -/
  | outNA (n : Byte)
  /-- IN A,(n): 49_io R390. -/
  | inAN (n : Byte)
  /-- EXX: 42_exchange_block R202. -/
  | exx
  /-- EX (SP),HL: 42_exchange_block R203. -/
  | exSpHl
  /-- JP (HL): 48_jump_call R364. -/
  | jpHl
  /-- EX DE,HL: 42_exchange_block R200. -/
  | exDeHl
  /-- DI: 44_general R268. -/
  | di
  /-- LD SP,HL: 41_load16 R178. -/
  | ldSpHl
  /-- EI: 44_general R269. -/
  | ei
  /-- prefix CB (CB table): 30_encoding R107. -/
  | prefixCB (op : Byte)
  /-- prefix ED (ED table): 30_encoding R108. -/
  | prefixED (op : Byte)
  /-- prefix DD (index table, XR = IX): 30_encoding R110. -/
  | prefixDD (op : Byte)
  /-- prefix FD (index table, XR = IY): 30_encoding R110. -/
  | prefixFD (op : Byte)
  /-- RLC r: 46_rotate_shift R315. -/
  | rlcReg (r : Reg8)
  /-- RLC (HL): 46_rotate_shift R315. -/
  | rlcAtHl
  /-- RRC r: 46_rotate_shift R316. -/
  | rrcReg (r : Reg8)
  /-- RRC (HL): 46_rotate_shift R316. -/
  | rrcAtHl
  /-- RL r: 46_rotate_shift R317. -/
  | rlReg (r : Reg8)
  /-- RL (HL): 46_rotate_shift R317. -/
  | rlAtHl
  /-- RR r: 46_rotate_shift R318. -/
  | rrReg (r : Reg8)
  /-- RR (HL): 46_rotate_shift R318. -/
  | rrAtHl
  /-- SLA r: 46_rotate_shift R319. -/
  | slaReg (r : Reg8)
  /-- SLA (HL): 46_rotate_shift R319. -/
  | slaAtHl
  /-- SRA r: 46_rotate_shift R320. -/
  | sraReg (r : Reg8)
  /-- SRA (HL): 46_rotate_shift R320. -/
  | sraAtHl
  /-- SLL r: 46_rotate_shift R321. -/
  | sllReg (r : Reg8)
  /-- SLL (HL): 46_rotate_shift R321. -/
  | sllAtHl
  /-- SRL r: 46_rotate_shift R322. -/
  | srlReg (r : Reg8)
  /-- SRL (HL): 46_rotate_shift R322. -/
  | srlAtHl
  /-- BIT b,r: 47_bit R340. -/
  | bitReg (b : BitVec 3) (r : Reg8)
  /-- BIT b,(HL): 47_bit R341. -/
  | bitAtHl (b : BitVec 3)
  /-- RES b,r: 47_bit R346. -/
  | resReg (b : BitVec 3) (r : Reg8)
  /-- RES b,(HL): 47_bit R347. -/
  | resAtHl (b : BitVec 3)
  /-- SET b,r: 47_bit R343. -/
  | setReg (b : BitVec 3) (r : Reg8)
  /-- SET b,(HL): 47_bit R344. -/
  | setAtHl (b : BitVec 3)
  /-- IN r,(C): 49_io R391. -/
  | inRegC (r : Reg8)
  /-- IN F,(C) (undocumented): 49_io R392. -/
  | inFC
  /-- OUT (C),r: 49_io R398. -/
  | outCReg (r : Reg8)
  /-- OUT (C),0 (undocumented): 49_io R399. -/
  | outC0
  /-- SBC HL,rr: 45_alu16 R294. -/
  | sbcHlPair (rr : Pair)
  /-- ADC HL,rr: 45_alu16 R293. -/
  | adcHlPair (rr : Pair)
  /-- LD (nn),rr: 41_load16 R176. -/
  | ldMemPair (nn : Word) (rr : Pair)
  /-- LD rr,(nn): 41_load16 R173. -/
  | ldPairMem (rr : Pair) (nn : Word)
  /-- NEG (0x44; 0x4C 0x54 0x5C 0x64 0x6C 0x74 0x7C undocumented mirrors): 44_general R262. -/
  | neg (y : BitVec 3)
  /-- RETN (0x45; 0x55 0x5D 0x65 0x6D 0x75 0x7D undocumented mirrors): 48_jump_call R372. -/
  | retn (y : BitVec 3)
  /-- RETI: 48_jump_call R371. -/
  | reti
  /-- IM 0 (0x46; 0x4E 0x66 0x6E undocumented mirrors): 44_general R270. -/
  | im0 (y : BitVec 3)
  /-- IM 1 (0x56; 0x76 undocumented mirror): 44_general R270. -/
  | im1 (y : BitVec 3)
  /-- IM 2 (0x5E; 0x7E undocumented mirror): 44_general R270. -/
  | im2 (y : BitVec 3)
  /-- LD I,A: 40_load8 R154. -/
  | ldIA
  /-- LD R,A: 40_load8 R155. -/
  | ldRA
  /-- LD A,I: 40_load8 R152. -/
  | ldAI
  /-- LD A,R: 40_load8 R153. -/
  | ldAR
  /-- RRD: 46_rotate_shift R324. -/
  | rrd
  /-- RLD: 46_rotate_shift R323. -/
  | rld
  /-- LDI: 42_exchange_block R205. -/
  | ldi
  /-- CPI: 42_exchange_block R209. -/
  | cpi
  /-- INI: 49_io R393. -/
  | ini
  /-- OUTI: 49_io R400. -/
  | outi
  /-- LDD: 42_exchange_block R207. -/
  | ldd
  /-- CPD: 42_exchange_block R211. -/
  | cpd
  /-- IND: 49_io R395. -/
  | ind
  /-- OUTD: 49_io R402. -/
  | outd
  /-- LDIR: 42_exchange_block R206. -/
  | ldir
  /-- CPIR: 42_exchange_block R210. -/
  | cpir
  /-- INIR: 49_io R394. -/
  | inir
  /-- OTIR: 49_io R401. -/
  | otir
  /-- LDDR: 42_exchange_block R208. -/
  | lddr
  /-- CPDR: 42_exchange_block R212. -/
  | cpdr
  /-- INDR: 49_io R396. -/
  | indr
  /-- OTDR: 49_io R403. -/
  | otdr
  /-- ADD XR,pp: 45_alu16 R295. -/
  | addXrPair (x : XR) (pp : IdxPair)
  /-- LD XR,nn: 41_load16 R171. -/
  | ldXrNn (x : XR) (nn : Word)
  /-- LD (nn),XR: 41_load16 R177. -/
  | ldMemXr (x : XR) (nn : Word)
  /-- INC XR: 45_alu16 R297. -/
  | incXr (x : XR)
  /-- DEC XR: 45_alu16 R299. -/
  | decXr (x : XR)
  /-- LD XR,(nn): 41_load16 R174. -/
  | ldXrMem (x : XR) (nn : Word)
  /-- INC XRH / INC XRL (undocumented): 43_alu8 R241. -/
  | incXrHalf (x : XR) (p : Half)
  /-- DEC XRH / DEC XRL (undocumented): 43_alu8 R242. -/
  | decXrHalf (x : XR) (p : Half)
  /-- LD XRH,n / LD XRL,n (undocumented): 40_load8 R157. -/
  | ldXrHalfN (x : XR) (p : Half) (n : Byte)
  /-- INC (XR+d): 43_alu8 R241. -/
  | incAtXr (x : XR) (d : Byte)
  /-- DEC (XR+d): 43_alu8 R242. -/
  | decAtXr (x : XR) (d : Byte)
  /-- LD (XR+d),n: 40_load8 R147. -/
  | ldAtXrN (x : XR) (d : Byte) (n : Byte)
  /-- LD r,r' with H/L read as XRH/XRL (undocumented): 40_load8 R156. -/
  | ldRegRegXr (x : XR) (r : Reg8) (r' : Reg8)
  /-- LD r,(XR+d): 40_load8 R145. -/
  | ldRegAtXr (x : XR) (r : Reg8) (d : Byte)
  /-- LD (XR+d),r: 40_load8 R146. -/
  | ldAtXrReg (x : XR) (d : Byte) (r : Reg8)
  /-- ADD A,XRH / ADD A,XRL (undocumented): 43_alu8 R233. -/
  | addXrHalf (x : XR) (p : Half)
  /-- ADD A,(XR+d): 43_alu8 R233. -/
  | addAtXr (x : XR) (d : Byte)
  /-- ADC A,XRH / ADC A,XRL (undocumented): 43_alu8 R234. -/
  | adcXrHalf (x : XR) (p : Half)
  /-- ADC A,(XR+d): 43_alu8 R234. -/
  | adcAtXr (x : XR) (d : Byte)
  /-- SUB XRH / SUB XRL (undocumented): 43_alu8 R235. -/
  | subXrHalf (x : XR) (p : Half)
  /-- SUB (XR+d): 43_alu8 R235. -/
  | subAtXr (x : XR) (d : Byte)
  /-- SBC A,XRH / SBC A,XRL (undocumented): 43_alu8 R236. -/
  | sbcXrHalf (x : XR) (p : Half)
  /-- SBC A,(XR+d): 43_alu8 R236. -/
  | sbcAtXr (x : XR) (d : Byte)
  /-- AND XRH / AND XRL (undocumented): 43_alu8 R237. -/
  | andXrHalf (x : XR) (p : Half)
  /-- AND (XR+d): 43_alu8 R237. -/
  | andAtXr (x : XR) (d : Byte)
  /-- XOR XRH / XOR XRL (undocumented): 43_alu8 R238. -/
  | xorXrHalf (x : XR) (p : Half)
  /-- XOR (XR+d): 43_alu8 R238. -/
  | xorAtXr (x : XR) (d : Byte)
  /-- OR XRH / OR XRL (undocumented): 43_alu8 R239. -/
  | orXrHalf (x : XR) (p : Half)
  /-- OR (XR+d): 43_alu8 R239. -/
  | orAtXr (x : XR) (d : Byte)
  /-- CP XRH / CP XRL (undocumented): 43_alu8 R240. -/
  | cpXrHalf (x : XR) (p : Half)
  /-- CP (XR+d): 43_alu8 R240. -/
  | cpAtXr (x : XR) (d : Byte)
  /-- prefix CB (XY table, DD/FD CB d op): 30_encoding R115. -/
  | prefixXrCB (x : XR) (d : Byte) (op : Byte)
  /-- POP XR: 41_load16 R183. -/
  | popXr (x : XR)
  /-- PUSH XR: 41_load16 R181. -/
  | pushXr (x : XR)
  /-- EX (SP),XR: 42_exchange_block R204. -/
  | exSpXr (x : XR)
  /-- JP (XR): 48_jump_call R365. -/
  | jpXr (x : XR)
  /-- LD SP,XR: 41_load16 R179. -/
  | ldSpXr (x : XR)
  /-- prefix DD or FD after DD or FD (the earlier prefix is ignored): 30_encoding R113. -/
  | prefixXrXr (x : XR) (i : Instr)
  /-- prefix ED after DD or FD (the index prefix is ignored): 30_encoding R114. -/
  | prefixXrED (x : XR) (i : Instr)
  /-- any other opcode: the base-table instruction, prefix ignored: 30_encoding R112. -/
  | prefixXrPass (x : XR) (i : Instr)
  /-- RLC (XR+d): 46_rotate_shift R315. -/
  | rlcAtXr (x : XR) (d : Byte)
  /-- RLC (XR+d),r (undocumented: result also to r): 46_rotate_shift R315. -/
  | rlcAtXrReg (x : XR) (d : Byte) (r : Reg8)
  /-- RRC (XR+d): 46_rotate_shift R316. -/
  | rrcAtXr (x : XR) (d : Byte)
  /-- RRC (XR+d),r (undocumented: result also to r): 46_rotate_shift R316. -/
  | rrcAtXrReg (x : XR) (d : Byte) (r : Reg8)
  /-- RL (XR+d): 46_rotate_shift R317. -/
  | rlAtXr (x : XR) (d : Byte)
  /-- RL (XR+d),r (undocumented: result also to r): 46_rotate_shift R317. -/
  | rlAtXrReg (x : XR) (d : Byte) (r : Reg8)
  /-- RR (XR+d): 46_rotate_shift R318. -/
  | rrAtXr (x : XR) (d : Byte)
  /-- RR (XR+d),r (undocumented: result also to r): 46_rotate_shift R318. -/
  | rrAtXrReg (x : XR) (d : Byte) (r : Reg8)
  /-- SLA (XR+d): 46_rotate_shift R319. -/
  | slaAtXr (x : XR) (d : Byte)
  /-- SLA (XR+d),r (undocumented: result also to r): 46_rotate_shift R319. -/
  | slaAtXrReg (x : XR) (d : Byte) (r : Reg8)
  /-- SRA (XR+d): 46_rotate_shift R320. -/
  | sraAtXr (x : XR) (d : Byte)
  /-- SRA (XR+d),r (undocumented: result also to r): 46_rotate_shift R320. -/
  | sraAtXrReg (x : XR) (d : Byte) (r : Reg8)
  /-- SLL (XR+d): 46_rotate_shift R321. -/
  | sllAtXr (x : XR) (d : Byte)
  /-- SLL (XR+d),r (undocumented: result also to r): 46_rotate_shift R321. -/
  | sllAtXrReg (x : XR) (d : Byte) (r : Reg8)
  /-- SRL (XR+d): 46_rotate_shift R322. -/
  | srlAtXr (x : XR) (d : Byte)
  /-- SRL (XR+d),r (undocumented: result also to r): 46_rotate_shift R322. -/
  | srlAtXrReg (x : XR) (d : Byte) (r : Reg8)
  /-- BIT b,(XR+d) (z != 6 undocumented, same): 47_bit R342. -/
  | bitAtXr (x : XR) (d : Byte) (b : BitVec 3) (z : BitVec 3)
  /-- RES b,(XR+d): 47_bit R348. -/
  | resAtXr (x : XR) (d : Byte) (b : BitVec 3)
  /-- RES b,(XR+d),r (undocumented: result also to r): 47_bit R348. -/
  | resAtXrReg (x : XR) (d : Byte) (b : BitVec 3) (r : Reg8)
  /-- SET b,(XR+d): 47_bit R345. -/
  | setAtXr (x : XR) (d : Byte) (b : BitVec 3)
  /-- SET b,(XR+d),r (undocumented: result also to r): 47_bit R345. -/
  | setAtXrReg (x : XR) (d : Byte) (b : BitVec 3) (r : Reg8)
  deriving DecidableEq, Repr

end Sys2Proof
end

