-- ==== Sys2Proof/Decode.lean ====
section
/-! DEFINITION. The decoder and the encoder (30_encoding R100 to R118).

`decode` reads a list of bytes in fetch order and answers the instruction with the bytes left over, or
`truncated` where the bytes end inside an instruction. Every opcode byte of every table is an instruction:
an unpopulated ED entry decodes to `prefixED`, a member of UNDOC_UNIMPL to `prefixDD` or `prefixFD`, and
their meanings raise the exceptions of 60_exceptions R441 and R442. -/

namespace Sys2Proof

/-! ### Fields to names (30_encoding R102) -/

/-- The r field; none for r = 6, the memory operand (HL). -/
def reg8Of (v : BitVec 3) : Option Reg8 :=
  match v.toNat with
  | 0 => some .b
  | 1 => some .c
  | 2 => some .d
  | 3 => some .e
  | 4 => some .h
  | 5 => some .l
  | 6 => none
  | _ => some .a

/-- The rp field. -/
def pairOf (v : BitVec 2) : Pair :=
  match v.toNat with
  | 0 => .bc
  | 1 => .de
  | 2 => .hl
  | _ => .sp

/-- The rp2 field. -/
def stackPairOf (v : BitVec 2) : StackPair :=
  match v.toNat with
  | 0 => .bc
  | 1 => .de
  | 2 => .hl
  | _ => .af

/-- The pp field. -/
def idxPairOf (v : BitVec 2) : IdxPair :=
  match v.toNat with
  | 0 => .bc
  | 1 => .de
  | 2 => .xr
  | _ => .sp

/-- The cc field. -/
def condOf (v : BitVec 3) : Cond :=
  match v.toNat with
  | 0 => .nz
  | 1 => .z
  | 2 => .nc
  | 3 => .c
  | 4 => .po
  | 5 => .pe
  | 6 => .p
  | _ => .m

/-- The index register of a prefix byte: IX after 0xDD, IY after 0xFD, none for any other byte. -/
def xrOfLead (op : Byte) : Option XR :=
  if op = 0xDD then some .ix else if op = 0xFD then some .iy else none

/-! ### Instructions chosen by a field -/

/-- The accumulator operation on a register: field ooo (43_alu8 R232). -/
def aluReg (o : BitVec 3) (r : Reg8) : Instr :=
  match o.toNat with
  | 0 => .addReg r
  | 1 => .adcReg r
  | 2 => .subReg r
  | 3 => .sbcReg r
  | 4 => .andReg r
  | 5 => .xorReg r
  | 6 => .orReg r
  | _ => .cpReg r

/-- The accumulator operation on (HL). -/
def aluAtHl (o : BitVec 3) : Instr :=
  match o.toNat with
  | 0 => .addAtHl
  | 1 => .adcAtHl
  | 2 => .subAtHl
  | 3 => .sbcAtHl
  | 4 => .andAtHl
  | 5 => .xorAtHl
  | 6 => .orAtHl
  | _ => .cpAtHl

/-- The accumulator operation on an immediate. -/
def aluN (o : BitVec 3) (n : Byte) : Instr :=
  match o.toNat with
  | 0 => .addN n
  | 1 => .adcN n
  | 2 => .subN n
  | 3 => .sbcN n
  | 4 => .andN n
  | 5 => .xorN n
  | 6 => .orN n
  | _ => .cpN n

/-- The accumulator operation on a byte of an index register. -/
def aluXrHalf (o : BitVec 3) (x : XR) (p : Half) : Instr :=
  match o.toNat with
  | 0 => .addXrHalf x p
  | 1 => .adcXrHalf x p
  | 2 => .subXrHalf x p
  | 3 => .sbcXrHalf x p
  | 4 => .andXrHalf x p
  | 5 => .xorXrHalf x p
  | 6 => .orXrHalf x p
  | _ => .cpXrHalf x p

/-- The accumulator operation on (XR+d). -/
def aluAtXr (o : BitVec 3) (x : XR) (d : Byte) : Instr :=
  match o.toNat with
  | 0 => .addAtXr x d
  | 1 => .adcAtXr x d
  | 2 => .subAtXr x d
  | 3 => .sbcAtXr x d
  | 4 => .andAtXr x d
  | 5 => .xorAtXr x d
  | 6 => .orAtXr x d
  | _ => .cpAtXr x d

/-- The CB rotate or shift of a register: the rot field (46_rotate_shift R314). -/
def rotReg (o : BitVec 3) (r : Reg8) : Instr :=
  match o.toNat with
  | 0 => .rlcReg r
  | 1 => .rrcReg r
  | 2 => .rlReg r
  | 3 => .rrReg r
  | 4 => .slaReg r
  | 5 => .sraReg r
  | 6 => .sllReg r
  | _ => .srlReg r

/-- The CB rotate or shift of (HL). -/
def rotAtHl (o : BitVec 3) : Instr :=
  match o.toNat with
  | 0 => .rlcAtHl
  | 1 => .rrcAtHl
  | 2 => .rlAtHl
  | 3 => .rrAtHl
  | 4 => .slaAtHl
  | 5 => .sraAtHl
  | 6 => .sllAtHl
  | _ => .srlAtHl

/-- The XYCB rotate or shift of (XR+d). -/
def rotAtXr (o : BitVec 3) (x : XR) (d : Byte) : Instr :=
  match o.toNat with
  | 0 => .rlcAtXr x d
  | 1 => .rrcAtXr x d
  | 2 => .rlAtXr x d
  | 3 => .rrAtXr x d
  | 4 => .slaAtXr x d
  | 5 => .sraAtXr x d
  | 6 => .sllAtXr x d
  | _ => .srlAtXr x d

/-- The XYCB rotate or shift of (XR+d) that also writes a register. -/
def rotAtXrReg (o : BitVec 3) (x : XR) (d : Byte) (r : Reg8) : Instr :=
  match o.toNat with
  | 0 => .rlcAtXrReg x d r
  | 1 => .rrcAtXrReg x d r
  | 2 => .rlAtXrReg x d r
  | 3 => .rrAtXrReg x d r
  | 4 => .slaAtXrReg x d r
  | 5 => .sraAtXrReg x d r
  | 6 => .sllAtXrReg x d r
  | _ => .srlAtXrReg x d r

/-! ### Operand bytes -/

/-- What decoding a table entry answers: the instruction and the bytes after it, or none where the operand
bytes are missing. -/
abbrev Entry := Option (Instr × List Byte)

/-- One operand byte: n, e or d. -/
def withByte (f : Byte → Instr) : List Byte → Entry
  | n :: rest => some (f n, rest)
  | [] => none

/-- Two operand bytes: d, then n or the fourth opcode byte (30_encoding R100). -/
def withTwo (f : Byte → Byte → Instr) : List Byte → Entry
  | d :: n :: rest => some (f d n, rest)
  | _ => none

/-- A word operand, low byte first (30_encoding R103). -/
def withWord (f : Word → Instr) : List Byte → Entry
  | lo :: hi :: rest => some (f (mkWord hi lo), rest)
  | _ => none

/-! ### The tables -/

/-- Base opcodes 0x00 to 0x3F (30_encoding R106). -/
def decodeBase0 (op : Byte) (rest : List Byte) : Entry :=
  let y := opY op
  let rr := pairOf (opP op)
  match (opZ op).toNat, y.toNat with
  | 0, 0 => some (.nop, rest)
  | 0, 1 => some (.exAfAf, rest)
  | 0, 2 => withByte .djnz rest
  | 0, 3 => withByte .jr rest
  | 0, 4 => withByte (.jrCond .nz) rest
  | 0, 5 => withByte (.jrCond .z) rest
  | 0, 6 => withByte (.jrCond .nc) rest
  | 0, _ => withByte (.jrCond .c) rest
  | 1, _ => if opQ op then some (.addHlPair rr, rest) else withWord (.ldPairNn rr) rest
  | 2, 0 => some (.ldPtrA .bc, rest)
  | 2, 1 => some (.ldAPtr .bc, rest)
  | 2, 2 => some (.ldPtrA .de, rest)
  | 2, 3 => some (.ldAPtr .de, rest)
  | 2, 4 => withWord .ldMemHl rest
  | 2, 5 => withWord .ldHlMem rest
  | 2, 6 => withWord .ldMemA rest
  | 2, _ => withWord .ldAMem rest
  | 3, _ => some (if opQ op then .decPair rr else .incPair rr, rest)
  | 4, _ => some ((reg8Of y).elim .incAtHl .incReg, rest)
  | 5, _ => some ((reg8Of y).elim .decAtHl .decReg, rest)
  | 6, _ => withByte ((reg8Of y).elim .ldAtHlN .ldRegN) rest
  | _, 0 => some (.rlca, rest)
  | _, 1 => some (.rrca, rest)
  | _, 2 => some (.rla, rest)
  | _, 3 => some (.rra, rest)
  | _, 4 => some (.daa, rest)
  | _, 5 => some (.cpl, rest)
  | _, 6 => some (.scf, rest)
  | _, _ => some (.ccf, rest)

/-- Base opcodes 0x40 to 0x7F: the 8-bit loads and HALT (30_encoding R106). -/
def decodeLoad (op : Byte) : Instr :=
  match reg8Of (opY op), reg8Of (opZ op) with
  | some r, some r' => .ldRegReg r r'
  | some r, none => .ldRegAtHl r
  | none, some r => .ldAtHlReg r
  | none, none => .halt

/-- Base opcodes 0xC0 to 0xFF that are no prefix byte (30_encoding R106). -/
def decodeBase3 (op : Byte) (rest : List Byte) : Entry :=
  let y := opY op
  let qq := stackPairOf (opP op)
  match (opZ op).toNat, y.toNat with
  | 0, _ => some (.retCond (condOf y), rest)
  | 1, 1 => some (.ret, rest)
  | 1, 3 => some (.exx, rest)
  | 1, 5 => some (.jpHl, rest)
  | 1, 7 => some (.ldSpHl, rest)
  | 1, _ => some (.popPair qq, rest)
  | 2, _ => withWord (.jpCond (condOf y)) rest
  | 3, 0 => withWord .jp rest
  | 3, 2 => withByte .outNA rest
  | 3, 3 => withByte .inAN rest
  | 3, 4 => some (.exSpHl, rest)
  | 3, 5 => some (.exDeHl, rest)
  | 3, 6 => some (.di, rest)
  | 3, _ => some (.ei, rest)
  | 4, _ => withWord (.callCond (condOf y)) rest
  | 5, 1 => withWord .call rest
  | 5, _ => some (.pushPair qq, rest)
  | 6, _ => withByte (aluN y) rest
  | _, _ => some (.rst y, rest)

/-- The base table at an opcode that is no prefix byte (30_encoding R106). -/
def decodeBase (op : Byte) (rest : List Byte) : Entry :=
  match (opX op).toNat with
  | 0 => decodeBase0 op rest
  | 1 => some (decodeLoad op, rest)
  | 2 => some ((reg8Of (opZ op)).elim (aluAtHl (opY op)) (aluReg (opY op)), rest)
  | _ => decodeBase3 op rest

/-- The CB table (30_encoding R107). -/
def decodeCB (op : Byte) : Instr :=
  let y := opY op
  match (opX op).toNat, reg8Of (opZ op) with
  | 0, some r => rotReg y r
  | 0, none => rotAtHl y
  | 1, some r => .bitReg y r
  | 1, none => .bitAtHl y
  | 2, some r => .resReg y r
  | 2, none => .resAtHl y
  | _, some r => .setReg y r
  | _, none => .setAtHl y

/-- ED opcodes 0x40 to 0x7F (30_encoding R108). -/
def decodeED1 (op : Byte) (rest : List Byte) : Entry :=
  let y := opY op
  let rr := pairOf (opP op)
  match (opZ op).toNat with
  | 0 => some ((reg8Of y).elim .inFC .inRegC, rest)
  | 1 => some ((reg8Of y).elim .outC0 .outCReg, rest)
  | 2 => some (if opQ op then .adcHlPair rr else .sbcHlPair rr, rest)
  | 3 => withWord (fun nn => if opQ op then .ldPairMem rr nn else .ldMemPair nn rr) rest
  | 4 => some (.neg y, rest)
  | 5 => some (if y = 1 then .reti else .retn y, rest)
  | 6 =>
    match y.toNat with
    | 2 => some (.im1 y, rest)
    | 6 => some (.im1 y, rest)
    | 3 => some (.im2 y, rest)
    | 7 => some (.im2 y, rest)
    | _ => some (.im0 y, rest)
  | _ =>
    match y.toNat with
    | 0 => some (.ldIA, rest)
    | 1 => some (.ldRA, rest)
    | 2 => some (.ldAI, rest)
    | 3 => some (.ldAR, rest)
    | 4 => some (.rrd, rest)
    | 5 => some (.rld, rest)
    | _ => some (.prefixED op, rest)

/-- ED opcodes 0x80 to 0xBF: the block instructions (30_encoding R108). -/
def decodeED2 (op : Byte) : Instr :=
  match (opY op).toNat, (opZ op).toNat with
  | 4, 0 => .ldi
  | 4, 1 => .cpi
  | 4, 2 => .ini
  | 4, 3 => .outi
  | 5, 0 => .ldd
  | 5, 1 => .cpd
  | 5, 2 => .ind
  | 5, 3 => .outd
  | 6, 0 => .ldir
  | 6, 1 => .cpir
  | 6, 2 => .inir
  | 6, 3 => .otir
  | 7, 0 => .lddr
  | 7, 1 => .cpdr
  | 7, 2 => .indr
  | 7, 3 => .otdr
  | _, _ => .prefixED op

/-- The ED table; an unpopulated entry is the prefix row itself (30_encoding R108). -/
def decodeED (op : Byte) (rest : List Byte) : Entry :=
  match (opX op).toNat with
  | 1 => decodeED1 op rest
  | 2 => some (decodeED2 op, rest)
  | _ => some (.prefixED op, rest)

/-- The XYCB table (30_encoding R115). -/
def decodeXyCb (x : XR) (d op : Byte) : Instr :=
  let y := opY op
  match (opX op).toNat, reg8Of (opZ op) with
  | 0, some r => rotAtXrReg y x d r
  | 0, none => rotAtXr y x d
  | 1, _ => .bitAtXr x d y (opZ op)
  | 2, some r => .resAtXrReg x d y r
  | 2, none => .resAtXr x d y
  | _, some r => .setAtXrReg x d y r
  | _, none => .setAtXr x d y

/-- H and L name XRH and XRL where an index prefix substitutes them (30_encoding R111). -/
def halfOf (r : Reg8) : Option Half :=
  match r with
  | .h => some .hi
  | .l => some .lo
  | _ => none

/-- An index-table entry that 30_encoding R111 lists: none where the entry is not listed, so that the base
instruction stands (30_encoding R112). -/
def decodeListed (x : XR) (op : Byte) (rest : List Byte) : Option Entry :=
  let y := opY op
  match (opX op).toNat, (opZ op).toNat with
  | 0, 1 =>
    if opQ op then some (some (.addXrPair x (idxPairOf (opP op)), rest))
    else if y = 4 then some (withWord (.ldXrNn x) rest) else none
  | 0, 2 =>
    match y.toNat with
    | 4 => some (withWord (.ldMemXr x) rest)
    | 5 => some (withWord (.ldXrMem x) rest)
    | _ => none
  | 0, 3 =>
    match y.toNat with
    | 4 => some (some (.incXr x, rest))
    | 5 => some (some (.decXr x, rest))
    | _ => none
  | 0, 4 =>
    match reg8Of y with
    | none => some (withByte (.incAtXr x) rest)
    | some r => (halfOf r).map fun p => some (.incXrHalf x p, rest)
  | 0, 5 =>
    match reg8Of y with
    | none => some (withByte (.decAtXr x) rest)
    | some r => (halfOf r).map fun p => some (.decXrHalf x p, rest)
  | 0, 6 =>
    match reg8Of y with
    | none => some (withTwo (.ldAtXrN x) rest)
    | some r => (halfOf r).map fun p => withByte (.ldXrHalfN x p) rest
  | 1, _ =>
    match reg8Of y, reg8Of (opZ op) with
    | some r, some r' =>
      if (halfOf r).isSome || (halfOf r').isSome then some (some (.ldRegRegXr x r r', rest)) else none
    | some r, none => some (withByte (.ldRegAtXr x r) rest)
    | none, some r => some (withByte (fun d => .ldAtXrReg x d r) rest)
    | none, none => none
  | 2, _ =>
    match reg8Of (opZ op) with
    | none => some (withByte (aluAtXr y x) rest)
    | some r => (halfOf r).map fun p => some (aluXrHalf y x p, rest)
  | 3, _ =>
    match op.toNat with
    | 0xE1 => some (some (.popXr x, rest))
    | 0xE3 => some (some (.exSpXr x, rest))
    | 0xE5 => some (some (.pushXr x, rest))
    | 0xE9 => some (some (.jpXr x, rest))
    | 0xF9 => some (some (.ldSpXr x, rest))
    | _ => none
  | _, _ => none

/-- The index table at an opcode that is no prefix byte (30_encoding R110 to R112). -/
def decodeIndex (x : XR) (op : Byte) (rest : List Byte) : Entry :=
  match decodeListed x op rest with
  | some entry => entry
  | none => (decodeBase op rest).map fun (i, rest') => (.prefixXrPass x i, rest')

/-- What follows an index prefix: the rest of the loop of 30_encoding R105, `u` being UNDOC_UNIMPL. -/
def decodeAfterXr (u : List (XR × Byte)) (x : XR) : List Byte → Entry
  | [] => none
  | op :: rest =>
    match xrOfLead op with
    | some x' => (decodeAfterXr u x' rest).map fun (i, rest') => (.prefixXrXr x i, rest')
    | none =>
      if op = 0xCB then withTwo (decodeXyCb x) rest
      else if op = 0xED then
        match rest with
        | [] => none
        | op2 :: rest2 => (decodeED op2 rest2).map fun (i, rest') => (.prefixXrED x i, rest')
      else if u.contains (x, op) then
        some (match x with
          | .ix => .prefixDD op
          | .iy => .prefixFD op, rest)
      else decodeIndex x op rest

/-- Why a list of bytes is no instruction. -/
inductive DecodeError where
  /-- The bytes end inside an instruction (30_encoding R117). -/
  | truncated
  deriving DecidableEq, Repr

/-- The decoder with UNDOC_UNIMPL given (30_encoding R105). -/
def decodeWith (u : List (XR × Byte)) (bytes : List Byte) : Except DecodeError (Instr × List Byte) :=
  let entry : Entry :=
    match bytes with
    | [] => none
    | op :: rest =>
      match xrOfLead op with
      | some x => decodeAfterXr u x rest
      | none =>
        if op = 0xCB then
          match rest with
          | [] => none
          | op2 :: rest2 => some (decodeCB op2, rest2)
        else if op = 0xED then
          match rest with
          | [] => none
          | op2 :: rest2 => decodeED op2 rest2
        else decodeBase op rest
  match entry with
  | some r => .ok r
  | none => .error .truncated

/-- The decoder of this hardware: UNDOC_UNIMPL at the spec's value. -/
def decode (bytes : List Byte) : Except DecodeError (Instr × List Byte) :=
  decodeWith Config.undocUnimpl bytes

/-! ### Names to fields -/

/-- The r field of a register. -/
def Reg8.code : Reg8 → BitVec 3
  | .b => 0
  | .c => 1
  | .d => 2
  | .e => 3
  | .h => 4
  | .l => 5
  | .a => 7

/-- A register in bits 5:3. -/
def Reg8.high (r : Reg8) : Byte := field3 r.code

/-- A register in bits 2:0. -/
def Reg8.low (r : Reg8) : Byte := low3 r.code

/-- A pair in bits 5:4. -/
def Pair.field : Pair → Byte
  | .bc => field2 0
  | .de => field2 1
  | .hl => field2 2
  | .sp => field2 3

/-- A stack pair in bits 5:4. -/
def StackPair.field : StackPair → Byte
  | .bc => field2 0
  | .de => field2 1
  | .hl => field2 2
  | .af => field2 3

/-- The pp field in bits 5:4. -/
def IdxPair.field : IdxPair → Byte
  | .bc => field2 0
  | .de => field2 1
  | .xr => field2 2
  | .sp => field2 3

/-- A pointer pair in bit 4. -/
def PtrPair.field : PtrPair → Byte
  | .bc => field2 0
  | .de => field2 1

/-- A condition in bits 5:3. -/
def Cond.field : Cond → Byte
  | .nz => field3 0
  | .z => field3 1
  | .nc => field3 2
  | .c => field3 3
  | .po => field3 4
  | .pe => field3 5
  | .p => field3 6
  | .m => field3 7

/-- A JR condition in bits 4:3. -/
def JrCond.field : JrCond → Byte
  | .nz => field3 0
  | .z => field3 1
  | .nc => field3 2
  | .c => field3 3

/-- XRH or XRL in bits 5:3, where H or L stands. -/
def Half.high : Half → Byte
  | .hi => 0x00
  | .lo => 0x08

/-- XRH or XRL in bits 2:0, where H or L stands. -/
def Half.low : Half → Byte
  | .hi => 0x00
  | .lo => 0x01

/-- The prefix byte that selects an index register (30_encoding R110). -/
def XR.lead : XR → Byte
  | .ix => 0xDD
  | .iy => 0xFD

/-- The bytes of an instruction in fetch order (30_encoding R100, R106 to R115). -/
def encode : Instr → List Byte
  | .nop => [0x00]
  | .ldPairNn rr nn => [0x01 ||| rr.field, loByte nn, hiByte nn]
  | .ldPtrA rr => [0x02 ||| rr.field]
  | .ldMemHl nn => [0x22, loByte nn, hiByte nn]
  | .ldMemA nn => [0x32, loByte nn, hiByte nn]
  | .incPair rr => [0x03 ||| rr.field]
  | .decPair rr => [0x0B ||| rr.field]
  | .incReg r => [0x04 ||| r.high]
  | .incAtHl => [0x34]
  | .decReg r => [0x05 ||| r.high]
  | .decAtHl => [0x35]
  | .ldRegN r n => [0x06 ||| r.high, n]
  | .ldAtHlN n => [0x36, n]
  | .rlca => [0x07]
  | .rrca => [0x0F]
  | .rla => [0x17]
  | .rra => [0x1F]
  | .daa => [0x27]
  | .cpl => [0x2F]
  | .scf => [0x37]
  | .ccf => [0x3F]
  | .exAfAf => [0x08]
  | .addHlPair rr => [0x09 ||| rr.field]
  | .ldAPtr rr => [0x0A ||| rr.field]
  | .ldHlMem nn => [0x2A, loByte nn, hiByte nn]
  | .ldAMem nn => [0x3A, loByte nn, hiByte nn]
  | .djnz e => [0x10, e]
  | .jr e => [0x18, e]
  | .jrCond cc e => [0x20 ||| cc.field, e]
  | .ldRegReg r r' => [0x40 ||| r.high ||| r'.low]
  | .ldRegAtHl r => [0x46 ||| r.high]
  | .ldAtHlReg r => [0x70 ||| r.low]
  | .halt => [0x76]
  | .addReg r => [0x80 ||| r.low]
  | .addAtHl => [0x86]
  | .addN n => [0xC6, n]
  | .adcReg r => [0x88 ||| r.low]
  | .adcAtHl => [0x8E]
  | .adcN n => [0xCE, n]
  | .subReg r => [0x90 ||| r.low]
  | .subAtHl => [0x96]
  | .subN n => [0xD6, n]
  | .sbcReg r => [0x98 ||| r.low]
  | .sbcAtHl => [0x9E]
  | .sbcN n => [0xDE, n]
  | .andReg r => [0xA0 ||| r.low]
  | .andAtHl => [0xA6]
  | .andN n => [0xE6, n]
  | .xorReg r => [0xA8 ||| r.low]
  | .xorAtHl => [0xAE]
  | .xorN n => [0xEE, n]
  | .orReg r => [0xB0 ||| r.low]
  | .orAtHl => [0xB6]
  | .orN n => [0xF6, n]
  | .cpReg r => [0xB8 ||| r.low]
  | .cpAtHl => [0xBE]
  | .cpN n => [0xFE, n]
  | .retCond cc => [0xC0 ||| cc.field]
  | .popPair qq => [0xC1 ||| qq.field]
  | .jpCond cc nn => [0xC2 ||| cc.field, loByte nn, hiByte nn]
  | .jp nn => [0xC3, loByte nn, hiByte nn]
  | .callCond cc nn => [0xC4 ||| cc.field, loByte nn, hiByte nn]
  | .pushPair qq => [0xC5 ||| qq.field]
  | .rst t => [0xC7 ||| field3 t]
  | .ret => [0xC9]
  | .call nn => [0xCD, loByte nn, hiByte nn]
  | .outNA n => [0xD3, n]
  | .inAN n => [0xDB, n]
  | .exx => [0xD9]
  | .exSpHl => [0xE3]
  | .jpHl => [0xE9]
  | .exDeHl => [0xEB]
  | .di => [0xF3]
  | .ldSpHl => [0xF9]
  | .ei => [0xFB]
  | .prefixCB op => [0xCB, op]
  | .prefixED op => [0xED, op]
  | .prefixDD op => [0xDD, op]
  | .prefixFD op => [0xFD, op]
  | .rlcReg r => [0xCB, 0x00 ||| r.low]
  | .rlcAtHl => [0xCB, 0x06]
  | .rrcReg r => [0xCB, 0x08 ||| r.low]
  | .rrcAtHl => [0xCB, 0x0E]
  | .rlReg r => [0xCB, 0x10 ||| r.low]
  | .rlAtHl => [0xCB, 0x16]
  | .rrReg r => [0xCB, 0x18 ||| r.low]
  | .rrAtHl => [0xCB, 0x1E]
  | .slaReg r => [0xCB, 0x20 ||| r.low]
  | .slaAtHl => [0xCB, 0x26]
  | .sraReg r => [0xCB, 0x28 ||| r.low]
  | .sraAtHl => [0xCB, 0x2E]
  | .sllReg r => [0xCB, 0x30 ||| r.low]
  | .sllAtHl => [0xCB, 0x36]
  | .srlReg r => [0xCB, 0x38 ||| r.low]
  | .srlAtHl => [0xCB, 0x3E]
  | .bitReg b r => [0xCB, 0x40 ||| field3 b ||| r.low]
  | .bitAtHl b => [0xCB, 0x46 ||| field3 b]
  | .resReg b r => [0xCB, 0x80 ||| field3 b ||| r.low]
  | .resAtHl b => [0xCB, 0x86 ||| field3 b]
  | .setReg b r => [0xCB, 0xC0 ||| field3 b ||| r.low]
  | .setAtHl b => [0xCB, 0xC6 ||| field3 b]
  | .inRegC r => [0xED, 0x40 ||| r.high]
  | .inFC => [0xED, 0x70]
  | .outCReg r => [0xED, 0x41 ||| r.high]
  | .outC0 => [0xED, 0x71]
  | .sbcHlPair rr => [0xED, 0x42 ||| rr.field]
  | .adcHlPair rr => [0xED, 0x4A ||| rr.field]
  | .ldMemPair nn rr => [0xED, 0x43 ||| rr.field, loByte nn, hiByte nn]
  | .ldPairMem rr nn => [0xED, 0x4B ||| rr.field, loByte nn, hiByte nn]
  | .neg y => [0xED, 0x44 ||| field3 y]
  | .retn y => [0xED, 0x45 ||| field3 y]
  | .reti => [0xED, 0x4D]
  | .im0 y => [0xED, 0x46 ||| field3 y]
  | .im1 y => [0xED, 0x46 ||| field3 y]
  | .im2 y => [0xED, 0x46 ||| field3 y]
  | .ldIA => [0xED, 0x47]
  | .ldRA => [0xED, 0x4F]
  | .ldAI => [0xED, 0x57]
  | .ldAR => [0xED, 0x5F]
  | .rrd => [0xED, 0x67]
  | .rld => [0xED, 0x6F]
  | .ldi => [0xED, 0xA0]
  | .cpi => [0xED, 0xA1]
  | .ini => [0xED, 0xA2]
  | .outi => [0xED, 0xA3]
  | .ldd => [0xED, 0xA8]
  | .cpd => [0xED, 0xA9]
  | .ind => [0xED, 0xAA]
  | .outd => [0xED, 0xAB]
  | .ldir => [0xED, 0xB0]
  | .cpir => [0xED, 0xB1]
  | .inir => [0xED, 0xB2]
  | .otir => [0xED, 0xB3]
  | .lddr => [0xED, 0xB8]
  | .cpdr => [0xED, 0xB9]
  | .indr => [0xED, 0xBA]
  | .otdr => [0xED, 0xBB]
  | .addXrPair x pp => [x.lead, 0x09 ||| pp.field]
  | .ldXrNn x nn => [x.lead, 0x21, loByte nn, hiByte nn]
  | .ldMemXr x nn => [x.lead, 0x22, loByte nn, hiByte nn]
  | .incXr x => [x.lead, 0x23]
  | .decXr x => [x.lead, 0x2B]
  | .ldXrMem x nn => [x.lead, 0x2A, loByte nn, hiByte nn]
  | .incXrHalf x p => [x.lead, 0x24 ||| p.high]
  | .decXrHalf x p => [x.lead, 0x25 ||| p.high]
  | .ldXrHalfN x p n => [x.lead, 0x26 ||| p.high, n]
  | .incAtXr x d => [x.lead, 0x34, d]
  | .decAtXr x d => [x.lead, 0x35, d]
  | .ldAtXrN x d n => [x.lead, 0x36, d, n]
  | .ldRegRegXr x r r' => [x.lead, 0x40 ||| r.high ||| r'.low]
  | .ldRegAtXr x r d => [x.lead, 0x46 ||| r.high, d]
  | .ldAtXrReg x d r => [x.lead, 0x70 ||| r.low, d]
  | .addXrHalf x p => [x.lead, 0x84 ||| p.low]
  | .addAtXr x d => [x.lead, 0x86, d]
  | .adcXrHalf x p => [x.lead, 0x8C ||| p.low]
  | .adcAtXr x d => [x.lead, 0x8E, d]
  | .subXrHalf x p => [x.lead, 0x94 ||| p.low]
  | .subAtXr x d => [x.lead, 0x96, d]
  | .sbcXrHalf x p => [x.lead, 0x9C ||| p.low]
  | .sbcAtXr x d => [x.lead, 0x9E, d]
  | .andXrHalf x p => [x.lead, 0xA4 ||| p.low]
  | .andAtXr x d => [x.lead, 0xA6, d]
  | .xorXrHalf x p => [x.lead, 0xAC ||| p.low]
  | .xorAtXr x d => [x.lead, 0xAE, d]
  | .orXrHalf x p => [x.lead, 0xB4 ||| p.low]
  | .orAtXr x d => [x.lead, 0xB6, d]
  | .cpXrHalf x p => [x.lead, 0xBC ||| p.low]
  | .cpAtXr x d => [x.lead, 0xBE, d]
  | .prefixXrCB x d op => [x.lead, 0xCB, d, op]
  | .popXr x => [x.lead, 0xE1]
  | .pushXr x => [x.lead, 0xE5]
  | .exSpXr x => [x.lead, 0xE3]
  | .jpXr x => [x.lead, 0xE9]
  | .ldSpXr x => [x.lead, 0xF9]
  | .prefixXrXr x i => x.lead :: encode i
  | .prefixXrED x i => x.lead :: encode i
  | .prefixXrPass x i => x.lead :: encode i
  | .rlcAtXr x d => [x.lead, 0xCB, d, 0x06]
  | .rlcAtXrReg x d r => [x.lead, 0xCB, d, 0x00 ||| r.low]
  | .rrcAtXr x d => [x.lead, 0xCB, d, 0x0E]
  | .rrcAtXrReg x d r => [x.lead, 0xCB, d, 0x08 ||| r.low]
  | .rlAtXr x d => [x.lead, 0xCB, d, 0x16]
  | .rlAtXrReg x d r => [x.lead, 0xCB, d, 0x10 ||| r.low]
  | .rrAtXr x d => [x.lead, 0xCB, d, 0x1E]
  | .rrAtXrReg x d r => [x.lead, 0xCB, d, 0x18 ||| r.low]
  | .slaAtXr x d => [x.lead, 0xCB, d, 0x26]
  | .slaAtXrReg x d r => [x.lead, 0xCB, d, 0x20 ||| r.low]
  | .sraAtXr x d => [x.lead, 0xCB, d, 0x2E]
  | .sraAtXrReg x d r => [x.lead, 0xCB, d, 0x28 ||| r.low]
  | .sllAtXr x d => [x.lead, 0xCB, d, 0x36]
  | .sllAtXrReg x d r => [x.lead, 0xCB, d, 0x30 ||| r.low]
  | .srlAtXr x d => [x.lead, 0xCB, d, 0x3E]
  | .srlAtXrReg x d r => [x.lead, 0xCB, d, 0x38 ||| r.low]
  | .bitAtXr x d b z => [x.lead, 0xCB, d, 0x40 ||| field3 b ||| low3 z]
  | .resAtXr x d b => [x.lead, 0xCB, d, 0x86 ||| field3 b]
  | .resAtXrReg x d b r => [x.lead, 0xCB, d, 0x80 ||| field3 b ||| r.low]
  | .setAtXr x d b => [x.lead, 0xCB, d, 0xC6 ||| field3 b]
  | .setAtXrReg x d b r => [x.lead, 0xCB, d, 0xC0 ||| field3 b ||| r.low]

/-! ### Opcode fetches -/

/-- What the first byte of an instruction is: a base opcode, or one of the prefix bytes 0xCB, 0xED and
0xDD/0xFD (30_encoding R105). -/
inductive Lead where
  | plain
  | cb
  | ed
  | index
  deriving DecidableEq, Repr

/-- The kind of an instruction's first byte (the prefix column of spec/opcode_table.json). -/
def Instr.lead : Instr → Lead
  | .nop => .plain
  | .ldPairNn _ _ => .plain
  | .ldPtrA _ => .plain
  | .ldMemHl _ => .plain
  | .ldMemA _ => .plain
  | .incPair _ => .plain
  | .decPair _ => .plain
  | .incReg _ => .plain
  | .incAtHl => .plain
  | .decReg _ => .plain
  | .decAtHl => .plain
  | .ldRegN _ _ => .plain
  | .ldAtHlN _ => .plain
  | .rlca => .plain
  | .rrca => .plain
  | .rla => .plain
  | .rra => .plain
  | .daa => .plain
  | .cpl => .plain
  | .scf => .plain
  | .ccf => .plain
  | .exAfAf => .plain
  | .addHlPair _ => .plain
  | .ldAPtr _ => .plain
  | .ldHlMem _ => .plain
  | .ldAMem _ => .plain
  | .djnz _ => .plain
  | .jr _ => .plain
  | .jrCond _ _ => .plain
  | .ldRegReg _ _ => .plain
  | .ldRegAtHl _ => .plain
  | .ldAtHlReg _ => .plain
  | .halt => .plain
  | .addReg _ => .plain
  | .addAtHl => .plain
  | .addN _ => .plain
  | .adcReg _ => .plain
  | .adcAtHl => .plain
  | .adcN _ => .plain
  | .subReg _ => .plain
  | .subAtHl => .plain
  | .subN _ => .plain
  | .sbcReg _ => .plain
  | .sbcAtHl => .plain
  | .sbcN _ => .plain
  | .andReg _ => .plain
  | .andAtHl => .plain
  | .andN _ => .plain
  | .xorReg _ => .plain
  | .xorAtHl => .plain
  | .xorN _ => .plain
  | .orReg _ => .plain
  | .orAtHl => .plain
  | .orN _ => .plain
  | .cpReg _ => .plain
  | .cpAtHl => .plain
  | .cpN _ => .plain
  | .retCond _ => .plain
  | .popPair _ => .plain
  | .jpCond _ _ => .plain
  | .jp _ => .plain
  | .callCond _ _ => .plain
  | .pushPair _ => .plain
  | .rst _ => .plain
  | .ret => .plain
  | .call _ => .plain
  | .outNA _ => .plain
  | .inAN _ => .plain
  | .exx => .plain
  | .exSpHl => .plain
  | .jpHl => .plain
  | .exDeHl => .plain
  | .di => .plain
  | .ldSpHl => .plain
  | .ei => .plain
  | .prefixCB _ => .cb
  | .prefixED _ => .ed
  | .prefixDD _ => .index
  | .prefixFD _ => .index
  | .rlcReg _ => .cb
  | .rlcAtHl => .cb
  | .rrcReg _ => .cb
  | .rrcAtHl => .cb
  | .rlReg _ => .cb
  | .rlAtHl => .cb
  | .rrReg _ => .cb
  | .rrAtHl => .cb
  | .slaReg _ => .cb
  | .slaAtHl => .cb
  | .sraReg _ => .cb
  | .sraAtHl => .cb
  | .sllReg _ => .cb
  | .sllAtHl => .cb
  | .srlReg _ => .cb
  | .srlAtHl => .cb
  | .bitReg _ _ => .cb
  | .bitAtHl _ => .cb
  | .resReg _ _ => .cb
  | .resAtHl _ => .cb
  | .setReg _ _ => .cb
  | .setAtHl _ => .cb
  | .inRegC _ => .ed
  | .inFC => .ed
  | .outCReg _ => .ed
  | .outC0 => .ed
  | .sbcHlPair _ => .ed
  | .adcHlPair _ => .ed
  | .ldMemPair _ _ => .ed
  | .ldPairMem _ _ => .ed
  | .neg _ => .ed
  | .retn _ => .ed
  | .reti => .ed
  | .im0 _ => .ed
  | .im1 _ => .ed
  | .im2 _ => .ed
  | .ldIA => .ed
  | .ldRA => .ed
  | .ldAI => .ed
  | .ldAR => .ed
  | .rrd => .ed
  | .rld => .ed
  | .ldi => .ed
  | .cpi => .ed
  | .ini => .ed
  | .outi => .ed
  | .ldd => .ed
  | .cpd => .ed
  | .ind => .ed
  | .outd => .ed
  | .ldir => .ed
  | .cpir => .ed
  | .inir => .ed
  | .otir => .ed
  | .lddr => .ed
  | .cpdr => .ed
  | .indr => .ed
  | .otdr => .ed
  | .addXrPair _ _ => .index
  | .ldXrNn _ _ => .index
  | .ldMemXr _ _ => .index
  | .incXr _ => .index
  | .decXr _ => .index
  | .ldXrMem _ _ => .index
  | .incXrHalf _ _ => .index
  | .decXrHalf _ _ => .index
  | .ldXrHalfN _ _ _ => .index
  | .incAtXr _ _ => .index
  | .decAtXr _ _ => .index
  | .ldAtXrN _ _ _ => .index
  | .ldRegRegXr _ _ _ => .index
  | .ldRegAtXr _ _ _ => .index
  | .ldAtXrReg _ _ _ => .index
  | .addXrHalf _ _ => .index
  | .addAtXr _ _ => .index
  | .adcXrHalf _ _ => .index
  | .adcAtXr _ _ => .index
  | .subXrHalf _ _ => .index
  | .subAtXr _ _ => .index
  | .sbcXrHalf _ _ => .index
  | .sbcAtXr _ _ => .index
  | .andXrHalf _ _ => .index
  | .andAtXr _ _ => .index
  | .xorXrHalf _ _ => .index
  | .xorAtXr _ _ => .index
  | .orXrHalf _ _ => .index
  | .orAtXr _ _ => .index
  | .cpXrHalf _ _ => .index
  | .cpAtXr _ _ => .index
  | .prefixXrCB _ _ _ => .index
  | .popXr _ => .index
  | .pushXr _ => .index
  | .exSpXr _ => .index
  | .jpXr _ => .index
  | .ldSpXr _ => .index
  | .prefixXrXr _ _ => .index
  | .prefixXrED _ _ => .index
  | .prefixXrPass _ _ => .index
  | .rlcAtXr _ _ => .index
  | .rlcAtXrReg _ _ _ => .index
  | .rrcAtXr _ _ => .index
  | .rrcAtXrReg _ _ _ => .index
  | .rlAtXr _ _ => .index
  | .rlAtXrReg _ _ _ => .index
  | .rrAtXr _ _ => .index
  | .rrAtXrReg _ _ _ => .index
  | .slaAtXr _ _ => .index
  | .slaAtXrReg _ _ _ => .index
  | .sraAtXr _ _ => .index
  | .sraAtXrReg _ _ _ => .index
  | .sllAtXr _ _ => .index
  | .sllAtXrReg _ _ _ => .index
  | .srlAtXr _ _ => .index
  | .srlAtXrReg _ _ _ => .index
  | .bitAtXr _ _ _ _ => .index
  | .resAtXr _ _ _ => .index
  | .resAtXrReg _ _ _ _ => .index
  | .setAtXr _ _ _ => .index
  | .setAtXrReg _ _ _ _ => .index

/-- How many bytes of an instruction are opcode fetches, each of which counts R once (30_encoding R104). -/
def Instr.m1 : Instr → Nat
  | .prefixXrXr _ i => i.m1 + 1
  | .prefixXrED _ i => i.m1 + 1
  | .prefixXrPass _ i => i.m1 + 1
  | i =>
    match i.lead with
    | .plain => 1
    | _ => 2

/-- The number of bytes of an instruction (30_encoding R117). -/
def Instr.size (i : Instr) : Nat := (encode i).length

/-! ### Words as the opcode table numbers them -/

/-- The bytes of a number, least significant first, as many as asked for. -/
def bytesOfNat : Nat → Nat → List Byte
  | 0, _ => []
  | k + 1, w => BitVec.ofNat 8 w :: bytesOfNat k (w / 256)

/-- The bytes of an opcode-table word of `nbits` bits, and four operand bytes of zeros after them
(log entry 19). -/
def tableBytes (nbits w : Nat) : List Byte :=
  bytesOfNat (nbits / 8) w ++ [0x00, 0x00, 0x00, 0x00]

/-- The instruction the decoder reads from an opcode-table word, all bits above `nbits` zero. -/
def decodeTableWord (nbits w : Nat) : Option Instr :=
  match decode (tableBytes nbits w) with
  | .ok (i, _) => some i
  | .error _ => none

end Sys2Proof
end

