-- ==== Sys2Proof/Machine/Fetch.lean ====
section
/-! DEFINITION. Fetching an instruction's bytes (10_state R36, 30_encoding R104, 20_memory R84).

A whole instruction is fetched before anything else it does (70_reset_and_hazards R477, log entry 13): first
its opcode fetches, then its operand fetches. -/

namespace Sys2Proof.Machine

/-- What the fetches of `n` bytes from an address on, mod 2^16, answer, `k` fetches from now. -/
def State.bytesFrom (s : State) : Nat → Nat → Word → List Byte
  | 0, _, _ => []
  | n + 1, k, a => s.codeAt k a :: s.bytesFrom n (k + 1) (a + 1)

/-- Where a run of index prefixes from an address on has ended if it ends at all, as a number of fetches from
now: RAM has been read once around, and the oracle device says it (log entry 11). -/
def State.lastRunEnd (s : State) (a : Word) : Nat :=
  match s.params.memDevice with
  | .ram => 65535
  | .oracle => (Config.runEnd s.draws a).getD 0

/-- The bytes the decoder may read: up to the last place where a run of index prefixes ends, and the four bytes
that an instruction can have after it (30_encoding R113). -/
def State.window (s : State) (a : Word) : List Byte := s.bytesFrom (s.lastRunEnd a + 5) 0 a

/-- `FetchOp`: an M1 read at PC, PC counts, R counts (00_scope R12, 10_state R36, R46). -/
def State.fetchOp (s : State) : State :=
  { s.emit .m1 s.pc (s.codeAt 0 s.pc) with pc := s.pc + 1, draws := s.draws + 1 }.rInc

/-- `FetchByte`: a read at PC, PC counts (00_scope R12). -/
def State.fetchByte (s : State) : State :=
  { s.emit .mr s.pc (s.codeAt 0 s.pc) with pc := s.pc + 1, draws := s.draws + 1 }

/-- A number of opcode fetches. -/
def State.fetchOps : Nat → State → State
  | 0, s => s
  | n + 1, s => State.fetchOps n s.fetchOp

/-- A number of operand fetches. -/
def State.fetchBytes : Nat → State → State
  | 0, s => s
  | n + 1, s => State.fetchBytes n s.fetchByte

/-- The state after all bytes of an instruction are fetched: its opcode fetches, then its operand fetches
(20_memory R84, 30_encoding R104). -/
def State.fetched (s : State) (i : Instr) : State :=
  State.fetchBytes (i.size - i.m1) (State.fetchOps i.m1 s)

/-- The state after the rest of an instruction is fetched, its first two bytes having been opcode fetches
before. -/
def State.fetchedRest (s : State) (i : Instr) : State :=
  State.fetchBytes (i.size - i.m1) (State.fetchOps (i.m1 - 2) s)

/-- The instruction at an address (30_encoding R105): an error where its bytes never end. -/
def State.instrAt (s : State) (a : Word) : Except DecodeError Instr :=
  match decodeWith s.params.undocUnimpl (s.window a) with
  | .ok (i, _) => .ok i
  | .error e => .error e

end Sys2Proof.Machine
end

