-- ==== Sys2Proof/Machine/General.lean ====
section
/-! DEFINITION. The general-purpose arithmetic and CPU control instructions (44_general R260 to R270). -/

namespace Sys2Proof.Machine

/-- DAA (44_general R260). -/
def execDaa (s : State) : Result := .next ({ s with a := (daa8 s.a s.f).1, f := (daa8 s.a s.f).2 }.took 4)

/-- CPL (44_general R261). -/
def execCpl (s : State) : Result :=
  .next ({ s with a := s.a ^^^ 0xFF, f := cplFlags (s.a ^^^ 0xFF) s.f }.took 4)

/-- NEG and its mirrors (44_general R262). -/
def execNeg (y : BitVec 3) (s : State) : Result :=
  let _ := y
  .next ({ s with a := (sub8 0 s.a false).1, f := (sub8 0 s.a false).2 }.took 8)

/-- Y and X for SCF and CCF with the state after them, by XY_SCF_CCF: `from_A` draws nothing, `chip_Q` draws a
byte (44_general R265). -/
def State.scfBits (s : State) : (Bool × Bool) × State :=
  match s.params.scfFlags with
  | .fromA => (scfYX .fromA s.a s.f 0, s)
  | .chipQ => (scfYX .chipQ s.a s.f s.drawByte.1, s.drawByte.2)

/-- CCF (44_general R263). -/
def execCcf (s : State) : Result := .next ((s.scfBits.2.setF (ccfFlagByte s.scfBits.1 s.f)).took 4)

/-- SCF (44_general R264). -/
def execScf (s : State) : Result := .next ((s.scfBits.2.setF (scfFlagByte s.scfBits.1 s.f)).took 4)

/-- NOP (44_general R266). -/
def execNop (s : State) : Result := .next (s.took 4)

/-- HALT: PC again holds the address of the 0x76 byte (44_general R267). -/
def execHalt (s : State) : Result := .next ({ s with halted := true, pc := s.pc - 1 }.took 4)

/-- DI (44_general R268). -/
def execDi (s : State) : Result := .next ({ s with iff1 := false, iff2 := false }.took 4)

/-- EI: no maskable interrupt before one more instruction (44_general R269). -/
def execEi (s : State) : Result := .next ({ s with iff1 := true, iff2 := true, eiDelay := 1 }.took 4)

/-- IM 0 and its mirrors (44_general R270). -/
def execIm0 (y : BitVec 3) (s : State) : Result :=
  let _ := y
  .next ({ s with im := .im0 }.took 8)

/-- IM 1 and its mirrors (44_general R270). -/
def execIm1 (y : BitVec 3) (s : State) : Result :=
  let _ := y
  .next ({ s with im := .im1 }.took 8)

/-- IM 2 and its mirrors (44_general R270). -/
def execIm2 (y : BitVec 3) (s : State) : Result :=
  let _ := y
  .next ({ s with im := .im2 }.took 8)

end Sys2Proof.Machine
end

