-- ==== Sys2Proof/Machine/Io.lean ====
section
/-! DEFINITION. The input and output instructions (49_io R390 to R403). -/

namespace Sys2Proof.Machine

/-- The port of the immediate forms: A:n (49_io R390). -/
def State.portN (s : State) (n : Byte) : Word := mkWord s.a n

/-- IN A,(n): no flag changes (49_io R390). -/
def execInAN (n : Byte) (s : State) : Result :=
  .next ({ (s.ioRead (s.portN n)).2 with a := (s.ioRead (s.portN n)).1 }.took 11)

/-- IN r,(C) (49_io R391). -/
def execInRegC (r : Reg8) (s : State) : Result :=
  let (v, s1) := s.ioRead s.bc
  .next (((s1.setReg8 r v).setF (inFlags v s.f)).took 12)

/-- IN F,(C): no register is written (49_io R392). -/
def execInFC (s : State) : Result :=
  let (v, s1) := s.ioRead s.bc
  .next ((s1.setF (inFlags v s.f)).took 12)

/-- OUT (n),A (49_io R397). -/
def execOutNA (n : Byte) (s : State) : Result := .next ((s.ioWrite (s.portN n) s.a).took 11)

/-- OUT (C),r (49_io R398). -/
def execOutCReg (r : Reg8) (s : State) : Result := .next ((s.ioWrite s.bc (s.reg8 r)).took 12)

/-- OUT (C),0: the byte is OUT_C0_VALUE (49_io R399). -/
def execOutC0 (s : State) : Result := .next ((s.ioWrite s.bc s.params.outC0Value).took 12)

/-- One iteration of INI (`step` = 1) or IND (`step` = -1), without its cost: the port uses B before the
decrement, and k is v + ((C + step) mod 256) (49_io R393, R395). -/
def State.blockIn (s : State) (step : Word) : State :=
  let (v, s1) := s.ioRead s.bc
  let s2 := s1.writeAt s.hl v
  let s3 := { s2.setHl (s.hl + step) with b := s.b - 1 }
  let k := v.toNat + (s.c + loByte step).toNat
  s3.setF (blockIoFlags v (s.b - 1) k)

/-- One iteration of OUTI (`step` = 1) or OUTD (`step` = -1), without its cost: the port uses B after the
decrement, and k is v + L with L after the count (49_io R400, R402). -/
def State.blockOut (s : State) (step : Word) : State :=
  let v := s.byteAt s.hl
  let s1 := { s.readAt s.hl with b := s.b - 1 }
  let s2 := (s1.ioWrite s1.bc v).setHl (s.hl + step)
  let k := v.toNat + s2.l.toNat
  s2.setF (blockIoFlags v s2.b k)

/-- INI (49_io R393). -/
def execIni (s : State) : Result := .next ((s.blockIn 1).took 16)

/-- IND (49_io R395). -/
def execInd (s : State) : Result := .next ((s.blockIn (-1)).took 16)

/-- OUTI (49_io R400). -/
def execOuti (s : State) : Result := .next ((s.blockOut 1).took 16)

/-- OUTD (49_io R402). -/
def execOutd (s : State) : Result := .next ((s.blockOut (-1)).took 16)

/-- INIR: it repeats while B is not 0 (49_io R394). -/
def execInir (s : State) : Result := .next ((s.blockIn 1).repeatBlock true (s.b - 1 != 0))

/-- INDR: it repeats while B is not 0 (49_io R396). -/
def execIndr (s : State) : Result := .next ((s.blockIn (-1)).repeatBlock true (s.b - 1 != 0))

/-- OTIR: it repeats while B is not 0 (49_io R401). -/
def execOtir (s : State) : Result := .next ((s.blockOut 1).repeatBlock true (s.b - 1 != 0))

/-- OTDR: it repeats while B is not 0 (49_io R403). -/
def execOtdr (s : State) : Result := .next ((s.blockOut (-1)).repeatBlock true (s.b - 1 != 0))

end Sys2Proof.Machine
end

