-- ==== Sys2Proof/Machine/Jump.lean ====
section
/-! DEFINITION. The jump, call, return and restart instructions (48_jump_call R360 to R373). -/

namespace Sys2Proof.Machine

/-- The target of a relative branch: the address after the instruction plus the signed byte
(30_encoding R103). -/
def State.relTarget (s : State) (e : Byte) : Word := s.pc + sext e

/-- `Push(PC); PC <- target` (48_jump_call R367). -/
def State.callTo (s : State) (target : Word) : State := { s.push s.pc with pc := target }

/-- `PC <- Pop()` (48_jump_call R369). -/
def State.returnTo (s : State) : State := { s.pop.2 with pc := s.pop.1 }

/-- JP nn (48_jump_call R360). -/
def execJp (nn : Word) (s : State) : Result := .next ({ s with pc := nn }.took 10)

/-- JP cc,nn: 10 T-states taken or not (48_jump_call R361). -/
def execJpCond (cc : Cond) (nn : Word) (s : State) : Result :=
  if condHolds cc s.f then .next ({ s with pc := nn }.took 10) else .next (s.took 10)

/-- JR e (48_jump_call R362). -/
def execJr (e : Byte) (s : State) : Result := .next ({ s with pc := s.relTarget e }.took 12)

/-- JR cc,e: 12 T-states taken, 7 not (48_jump_call R363). -/
def execJrCond (cc : JrCond) (e : Byte) (s : State) : Result :=
  if jrCondHolds cc s.f then .next ({ s with pc := s.relTarget e }.took 12) else .next (s.took 7)

/-- JP (HL): no memory is read (48_jump_call R364). -/
def execJpHl (s : State) : Result := .next ({ s with pc := s.hl }.took 4)

/-- JP (XR) (48_jump_call R365). -/
def execJpXr (x : XR) (s : State) : Result := .next ({ s with pc := s.xr x }.took 8)

/-- DJNZ e: no flag changes; 13 T-states taken, 8 not (48_jump_call R366). -/
def execDjnz (e : Byte) (s : State) : Result :=
  let s1 := { s with b := s.b - 1 }
  if s1.b != 0 then .next ({ s1 with pc := s.relTarget e }.took 13) else .next (s1.took 8)

/-- CALL nn (48_jump_call R367). -/
def execCall (nn : Word) (s : State) : Result := .next ((s.callTo nn).took 17)

/-- CALL cc,nn: 17 T-states taken, 10 not (48_jump_call R368). -/
def execCallCond (cc : Cond) (nn : Word) (s : State) : Result :=
  if condHolds cc s.f then .next ((s.callTo nn).took 17) else .next (s.took 10)

/-- RET (48_jump_call R369). -/
def execRet (s : State) : Result := .next (s.returnTo.took 10)

/-- RET cc: 11 T-states taken, 5 not (48_jump_call R370). -/
def execRetCond (cc : Cond) (s : State) : Result :=
  if condHolds cc s.f then .next (s.returnTo.took 11) else .next (s.took 5)

/-- RETI (48_jump_call R371). -/
def execReti (s : State) : Result := .next (s.returnFromInterrupt.took 14)

/-- RETN and its mirrors (48_jump_call R372). -/
def execRetn (y : BitVec 3) (s : State) : Result :=
  let _ := y
  .next (s.returnFromInterrupt.took 14)

/-- RST t: IFF1 and IFF2 are unchanged (48_jump_call R373). -/
def execRst (t : BitVec 3) (s : State) : Result := .next ((s.callTo (t.zeroExtend 16 <<< 3)).took 11)

end Sys2Proof.Machine
end

