-- ==== Sys2Proof/Machine/Load16.lean ====
section
/-! DEFINITION. The 16-bit loads, PUSH and POP (41_load16 R170 to R183). -/

namespace Sys2Proof.Machine

/-- LD dd,nn (41_load16 R170). -/
def execLdPairNn (rr : Pair) (nn : Word) (s : State) : Result := .next ((s.setPair rr nn).took 10)

/-- LD XR,nn (41_load16 R171). -/
def execLdXrNn (x : XR) (nn : Word) (s : State) : Result := .next ((s.setXr x nn).took 14)

/-- LD HL,(nn) (41_load16 R172). -/
def execLdHlMem (nn : Word) (s : State) : Result := .next (((s.readWordAt nn).setHl (s.wordAt nn)).took 16)

/-- LD dd,(nn) (41_load16 R173). -/
def execLdPairMem (rr : Pair) (nn : Word) (s : State) : Result :=
  .next (((s.readWordAt nn).setPair rr (s.wordAt nn)).took 20)

/-- LD XR,(nn) (41_load16 R174). -/
def execLdXrMem (x : XR) (nn : Word) (s : State) : Result :=
  .next (((s.readWordAt nn).setXr x (s.wordAt nn)).took 20)

/-- LD (nn),HL (41_load16 R175). -/
def execLdMemHl (nn : Word) (s : State) : Result := .next ((s.writeWordAt nn s.hl).took 16)

/-- LD (nn),dd (41_load16 R176). -/
def execLdMemPair (nn : Word) (rr : Pair) (s : State) : Result :=
  .next ((s.writeWordAt nn (s.pair rr)).took 20)

/-- LD (nn),XR (41_load16 R177). -/
def execLdMemXr (x : XR) (nn : Word) (s : State) : Result := .next ((s.writeWordAt nn (s.xr x)).took 20)

/-- LD SP,HL (41_load16 R178). -/
def execLdSpHl (s : State) : Result := .next ({ s with sp := s.hl }.took 6)

/-- LD SP,XR (41_load16 R179). -/
def execLdSpXr (x : XR) (s : State) : Result := .next ({ s with sp := s.xr x }.took 10)

/-- PUSH qq (41_load16 R180). -/
def execPushPair (qq : StackPair) (s : State) : Result := .next ((s.push (s.stackPair qq)).took 11)

/-- PUSH XR (41_load16 R181). -/
def execPushXr (x : XR) (s : State) : Result := .next ((s.push (s.xr x)).took 15)

/-- POP qq: only POP AF writes F (41_load16 R182). -/
def execPopPair (qq : StackPair) (s : State) : Result := .next ((s.pop.2.setStackPair qq s.pop.1).took 10)

/-- POP XR (41_load16 R183). -/
def execPopXr (x : XR) (s : State) : Result := .next ((s.pop.2.setXr x s.pop.1).took 14)

end Sys2Proof.Machine
end

