-- ==== Sys2Proof/Machine/Load8.lean ====
section
/-! DEFINITION. The 8-bit loads (40_load8 R140 to R157). -/

namespace Sys2Proof.Machine

/-- LD r,r' (40_load8 R140). -/
def execLdRegReg (r : Reg8) (r' : Reg8) (s : State) : Result := .next ((s.setReg8 r (s.reg8 r')).took 4)

/-- LD r,n (40_load8 R141). -/
def execLdRegN (r : Reg8) (n : Byte) (s : State) : Result := .next ((s.setReg8 r n).took 7)

/-- LD r,(HL) (40_load8 R142). -/
def execLdRegAtHl (r : Reg8) (s : State) : Result :=
  .next (((s.readAt s.hl).setReg8 r (s.byteAt s.hl)).took 7)

/-- LD (HL),r (40_load8 R143). -/
def execLdAtHlReg (r : Reg8) (s : State) : Result := .next ((s.writeAt s.hl (s.reg8 r)).took 7)

/-- LD (HL),n (40_load8 R144). -/
def execLdAtHlN (n : Byte) (s : State) : Result := .next ((s.writeAt s.hl n).took 10)

/-- LD r,(XR+d): r = 4 and 5 are H and L (40_load8 R145). -/
def execLdRegAtXr (x : XR) (r : Reg8) (d : Byte) (s : State) : Result :=
  .next (((s.readAt (s.ea x d)).setReg8 r (s.byteAt (s.ea x d))).took 19)

/-- LD (XR+d),r (40_load8 R146). -/
def execLdAtXrReg (x : XR) (d : Byte) (r : Reg8) (s : State) : Result :=
  .next ((s.writeAt (s.ea x d) (s.reg8 r)).took 19)

/-- LD (XR+d),n (40_load8 R147). -/
def execLdAtXrN (x : XR) (d : Byte) (n : Byte) (s : State) : Result :=
  .next ((s.writeAt (s.ea x d) n).took 19)

/-- LD A,(BC) and LD A,(DE) (40_load8 R148). -/
def execLdAPtr (rr : PtrPair) (s : State) : Result :=
  .next ({ s.readAt (s.ptrPair rr) with a := s.byteAt (s.ptrPair rr) }.took 7)

/-- LD (BC),A and LD (DE),A (40_load8 R149). -/
def execLdPtrA (rr : PtrPair) (s : State) : Result := .next ((s.writeAt (s.ptrPair rr) s.a).took 7)

/-- LD A,(nn) (40_load8 R150). -/
def execLdAMem (nn : Word) (s : State) : Result := .next ({ s.readAt nn with a := s.byteAt nn }.took 13)

/-- LD (nn),A (40_load8 R151). -/
def execLdMemA (nn : Word) (s : State) : Result := .next ((s.writeAt nn s.a).took 13)

/-- LD A,I: PV = IFF2 (40_load8 R152). -/
def execLdAI (s : State) : Result := .next ({ s with a := s.i, f := loadIrFlags s.i s.iff2 s.f }.took 9)

/-- LD A,R: R already counts the two opcode fetches (40_load8 R153). -/
def execLdAR (s : State) : Result := .next ({ s with a := s.r, f := loadIrFlags s.r s.iff2 s.f }.took 9)

/-- LD I,A (40_load8 R154). -/
def execLdIA (s : State) : Result := .next ({ s with i := s.a }.took 9)

/-- LD R,A: all eight bits, after the opcode fetches counted (40_load8 R155). -/
def execLdRA (s : State) : Result := .next ({ s with r := s.a }.took 9)

/-- LD r,r' with H and L read as XRH and XRL (40_load8 R156). -/
def execLdRegRegXr (x : XR) (r : Reg8) (r' : Reg8) (s : State) : Result :=
  .next ((s.setReg8Xr x r (s.reg8Xr x r')).took 8)

/-- LD XRH,n and LD XRL,n (40_load8 R157). -/
def execLdXrHalfN (x : XR) (p : Half) (n : Byte) (s : State) : Result := .next ((s.setXrHalf x p n).took 11)

end Sys2Proof.Machine
end

