-- ==== Sys2Proof/Machine/Rotate.lean ====
section
/-! DEFINITION. The rotate and shift instructions (46_rotate_shift R310 to R324). -/

namespace Sys2Proof.Machine

/-- A rotate of A: S, Z and PV are kept (46_rotate_shift, accumulator rotates). -/
def State.rotateA (s : State) (k : Rot) : State :=
  let (res, c) := rot8 k s.a (flagC s.f)
  { s with a := res, f := rotAFlags res c s.f }

/-- RLCA (46_rotate_shift R310). -/
def execRlca (s : State) : Result := .next ((s.rotateA .rlc).took 4)

/-- RRCA (46_rotate_shift R311). -/
def execRrca (s : State) : Result := .next ((s.rotateA .rrc).took 4)

/-- RLA (46_rotate_shift R312). -/
def execRla (s : State) : Result := .next ((s.rotateA .rl).took 4)

/-- RRA (46_rotate_shift R313). -/
def execRra (s : State) : Result := .next ((s.rotateA .rr).took 4)

/-- RLC r (46_rotate_shift R315). -/
def execRlcReg (r : Reg8) (s : State) : Result := .next ((s.modifyReg r (rotOp .rlc)).took 8)

/-- RLC (HL) (46_rotate_shift R315). -/
def execRlcAtHl (s : State) : Result := .next ((s.modifyAt s.hl (rotOp .rlc)).took 15)

/-- RLC (XR+d) (46_rotate_shift R315). -/
def execRlcAtXr (x : XR) (d : Byte) (s : State) : Result :=
  .next ((s.modifyAt (s.ea x d) (rotOp .rlc)).took 23)

/-- RLC (XR+d),r: the result also goes to r (46_rotate_shift R314, R315). -/
def execRlcAtXrReg (x : XR) (d : Byte) (r : Reg8) (s : State) : Result :=
  .next ((s.modifyAtCopy (s.ea x d) r (rotOp .rlc)).took 23)

/-- RRC r (46_rotate_shift R316). -/
def execRrcReg (r : Reg8) (s : State) : Result := .next ((s.modifyReg r (rotOp .rrc)).took 8)

/-- RRC (HL) (46_rotate_shift R316). -/
def execRrcAtHl (s : State) : Result := .next ((s.modifyAt s.hl (rotOp .rrc)).took 15)

/-- RRC (XR+d) (46_rotate_shift R316). -/
def execRrcAtXr (x : XR) (d : Byte) (s : State) : Result :=
  .next ((s.modifyAt (s.ea x d) (rotOp .rrc)).took 23)

/-- RRC (XR+d),r: the result also goes to r (46_rotate_shift R314, R316). -/
def execRrcAtXrReg (x : XR) (d : Byte) (r : Reg8) (s : State) : Result :=
  .next ((s.modifyAtCopy (s.ea x d) r (rotOp .rrc)).took 23)

/-- RL r (46_rotate_shift R317). -/
def execRlReg (r : Reg8) (s : State) : Result := .next ((s.modifyReg r (rotOp .rl)).took 8)

/-- RL (HL) (46_rotate_shift R317). -/
def execRlAtHl (s : State) : Result := .next ((s.modifyAt s.hl (rotOp .rl)).took 15)

/-- RL (XR+d) (46_rotate_shift R317). -/
def execRlAtXr (x : XR) (d : Byte) (s : State) : Result := .next ((s.modifyAt (s.ea x d) (rotOp .rl)).took 23)

/-- RL (XR+d),r: the result also goes to r (46_rotate_shift R314, R317). -/
def execRlAtXrReg (x : XR) (d : Byte) (r : Reg8) (s : State) : Result :=
  .next ((s.modifyAtCopy (s.ea x d) r (rotOp .rl)).took 23)

/-- RR r (46_rotate_shift R318). -/
def execRrReg (r : Reg8) (s : State) : Result := .next ((s.modifyReg r (rotOp .rr)).took 8)

/-- RR (HL) (46_rotate_shift R318). -/
def execRrAtHl (s : State) : Result := .next ((s.modifyAt s.hl (rotOp .rr)).took 15)

/-- RR (XR+d) (46_rotate_shift R318). -/
def execRrAtXr (x : XR) (d : Byte) (s : State) : Result := .next ((s.modifyAt (s.ea x d) (rotOp .rr)).took 23)

/-- RR (XR+d),r: the result also goes to r (46_rotate_shift R314, R318). -/
def execRrAtXrReg (x : XR) (d : Byte) (r : Reg8) (s : State) : Result :=
  .next ((s.modifyAtCopy (s.ea x d) r (rotOp .rr)).took 23)

/-- SLA r (46_rotate_shift R319). -/
def execSlaReg (r : Reg8) (s : State) : Result := .next ((s.modifyReg r (rotOp .sla)).took 8)

/-- SLA (HL) (46_rotate_shift R319). -/
def execSlaAtHl (s : State) : Result := .next ((s.modifyAt s.hl (rotOp .sla)).took 15)

/-- SLA (XR+d) (46_rotate_shift R319). -/
def execSlaAtXr (x : XR) (d : Byte) (s : State) : Result :=
  .next ((s.modifyAt (s.ea x d) (rotOp .sla)).took 23)

/-- SLA (XR+d),r: the result also goes to r (46_rotate_shift R314, R319). -/
def execSlaAtXrReg (x : XR) (d : Byte) (r : Reg8) (s : State) : Result :=
  .next ((s.modifyAtCopy (s.ea x d) r (rotOp .sla)).took 23)

/-- SRA r (46_rotate_shift R320). -/
def execSraReg (r : Reg8) (s : State) : Result := .next ((s.modifyReg r (rotOp .sra)).took 8)

/-- SRA (HL) (46_rotate_shift R320). -/
def execSraAtHl (s : State) : Result := .next ((s.modifyAt s.hl (rotOp .sra)).took 15)

/-- SRA (XR+d) (46_rotate_shift R320). -/
def execSraAtXr (x : XR) (d : Byte) (s : State) : Result :=
  .next ((s.modifyAt (s.ea x d) (rotOp .sra)).took 23)

/-- SRA (XR+d),r: the result also goes to r (46_rotate_shift R314, R320). -/
def execSraAtXrReg (x : XR) (d : Byte) (r : Reg8) (s : State) : Result :=
  .next ((s.modifyAtCopy (s.ea x d) r (rotOp .sra)).took 23)

/-- SLL r (46_rotate_shift R321). -/
def execSllReg (r : Reg8) (s : State) : Result := .next ((s.modifyReg r (rotOp .sll)).took 8)

/-- SLL (HL) (46_rotate_shift R321). -/
def execSllAtHl (s : State) : Result := .next ((s.modifyAt s.hl (rotOp .sll)).took 15)

/-- SLL (XR+d) (46_rotate_shift R321). -/
def execSllAtXr (x : XR) (d : Byte) (s : State) : Result :=
  .next ((s.modifyAt (s.ea x d) (rotOp .sll)).took 23)

/-- SLL (XR+d),r: the result also goes to r (46_rotate_shift R314, R321). -/
def execSllAtXrReg (x : XR) (d : Byte) (r : Reg8) (s : State) : Result :=
  .next ((s.modifyAtCopy (s.ea x d) r (rotOp .sll)).took 23)

/-- SRL r (46_rotate_shift R322). -/
def execSrlReg (r : Reg8) (s : State) : Result := .next ((s.modifyReg r (rotOp .srl)).took 8)

/-- SRL (HL) (46_rotate_shift R322). -/
def execSrlAtHl (s : State) : Result := .next ((s.modifyAt s.hl (rotOp .srl)).took 15)

/-- SRL (XR+d) (46_rotate_shift R322). -/
def execSrlAtXr (x : XR) (d : Byte) (s : State) : Result :=
  .next ((s.modifyAt (s.ea x d) (rotOp .srl)).took 23)

/-- SRL (XR+d),r: the result also goes to r (46_rotate_shift R314, R322). -/
def execSrlAtXrReg (x : XR) (d : Byte) (r : Reg8) (s : State) : Result :=
  .next ((s.modifyAtCopy (s.ea x d) r (rotOp .srl)).took 23)

/-- A digit rotate: a byte written at HL, then A and the flags of the new A; C is kept
(46_rotate_shift R323, R324). -/
def State.digitRotate (s : State) (byte newA : Byte) : State :=
  { (s.readAt s.hl).writeAt s.hl byte with a := newA, f := flagsSZXYP newA false false (flagC s.f) }

/-- RLD (46_rotate_shift R323). -/
def execRld (s : State) : Result :=
  let t := s.byteAt s.hl
  .next ((s.digitRotate ((t <<< 4) ||| (s.a &&& 0x0F)) ((s.a &&& 0xF0) ||| (t >>> 4))).took 18)

/-- RRD (46_rotate_shift R324). -/
def execRrd (s : State) : Result :=
  let t := s.byteAt s.hl
  .next ((s.digitRotate (((s.a &&& 0x0F) <<< 4) ||| (t >>> 4)) ((s.a &&& 0xF0) ||| (t &&& 0x0F))).took 18)

end Sys2Proof.Machine
end

