-- ==== Sys2Proof/Machine/Prefixes.lean ====
section
/-! DEFINITION. The rows of the prefix bytes (30_encoding R105, R107, R108, R110, R112 to R116).

A prefix row is the prefix with the byte that selects the table entry; its meaning runs that entry
(log entry 15). An index prefix without effect runs the instruction after it and costs 4 T-states more
(log entry 18). -/

namespace Sys2Proof.Machine

/-- Raise a fault: the record is set and there are no T-states; `settleFault` restores the rest at the end of
the step (60_exceptions R441, R442, log entry 14). -/
def raiseFault (kind : FaultKind) (s : State) : Result := .next (s.raise kind)

/-- The rotate or shift of the rot field (30_encoding R102). -/
def rotOf (y : BitVec 3) : Rot :=
  match y.toNat with
  | 0 => .rlc
  | 1 => .rrc
  | 2 => .rl
  | 3 => .rr
  | 4 => .sla
  | 5 => .sra
  | 6 => .sll
  | _ => .srl

/-- What an entry of the CB and XYCB tables with x = 0, 2 or 3 does to its operand and F: rotate or shift,
reset, set (30_encoding R107, R115). -/
def cbOp (op v f : Byte) : Byte × Byte :=
  match (opX op).toNat with
  | 0 => rotOp (rotOf (opY op)) v f
  | 2 => resOp (opY op) v f
  | _ => setOp (opY op) v f

/-- The entry CB[op] (30_encoding R107). -/
def runCbEntry (op : Byte) (s : State) : Result :=
  match reg8Of (opZ op) with
  | some r => if opX op = 1 then execBitReg (opY op) r s else .next ((s.modifyReg r (cbOp op)).took 8)
  | none => if opX op = 1 then execBitAtHl (opY op) s else .next ((s.modifyAt s.hl (cbOp op)).took 15)

/-- The entry XYCB[op] with its index register and displacement (30_encoding R115). -/
def runXyCbEntry (x : XR) (d op : Byte) (s : State) : Result :=
  if opX op = 1 then execBitAtXr x d (opY op) (opZ op) s
  else
    match reg8Of (opZ op) with
    | some r => .next ((s.modifyAtCopy (s.ea x d) r (cbOp op)).took 23)
    | none => .next ((s.modifyAt (s.ea x d) (cbOp op)).took 23)

/-- What an instruction does once it has been fetched, for the prefix rows: the meaning of every row, an
index prefix without effect adding its 4 T-states (30_encoding R112 to R114). -/
def runRow (i : Instr) (s : State) : Result :=
  match i with
  | .nop => execNop s
  | .ldPairNn rr nn => execLdPairNn rr nn s
  | .ldPtrA rr => execLdPtrA rr s
  | .ldMemHl nn => execLdMemHl nn s
  | .ldMemA nn => execLdMemA nn s
  | .incPair rr => execIncPair rr s
  | .decPair rr => execDecPair rr s
  | .incReg r => execIncReg r s
  | .incAtHl => execIncAtHl s
  | .decReg r => execDecReg r s
  | .decAtHl => execDecAtHl s
  | .ldRegN r n => execLdRegN r n s
  | .ldAtHlN n => execLdAtHlN n s
  | .rlca => execRlca s
  | .rrca => execRrca s
  | .rla => execRla s
  | .rra => execRra s
  | .daa => execDaa s
  | .cpl => execCpl s
  | .scf => execScf s
  | .ccf => execCcf s
  | .exAfAf => execExAfAf s
  | .addHlPair rr => execAddHlPair rr s
  | .ldAPtr rr => execLdAPtr rr s
  | .ldHlMem nn => execLdHlMem nn s
  | .ldAMem nn => execLdAMem nn s
  | .djnz e => execDjnz e s
  | .jr e => execJr e s
  | .jrCond cc e => execJrCond cc e s
  | .ldRegReg r r' => execLdRegReg r r' s
  | .ldRegAtHl r => execLdRegAtHl r s
  | .ldAtHlReg r => execLdAtHlReg r s
  | .halt => execHalt s
  | .addReg r => execAddReg r s
  | .addAtHl => execAddAtHl s
  | .addN n => execAddN n s
  | .adcReg r => execAdcReg r s
  | .adcAtHl => execAdcAtHl s
  | .adcN n => execAdcN n s
  | .subReg r => execSubReg r s
  | .subAtHl => execSubAtHl s
  | .subN n => execSubN n s
  | .sbcReg r => execSbcReg r s
  | .sbcAtHl => execSbcAtHl s
  | .sbcN n => execSbcN n s
  | .andReg r => execAndReg r s
  | .andAtHl => execAndAtHl s
  | .andN n => execAndN n s
  | .xorReg r => execXorReg r s
  | .xorAtHl => execXorAtHl s
  | .xorN n => execXorN n s
  | .orReg r => execOrReg r s
  | .orAtHl => execOrAtHl s
  | .orN n => execOrN n s
  | .cpReg r => execCpReg r s
  | .cpAtHl => execCpAtHl s
  | .cpN n => execCpN n s
  | .retCond cc => execRetCond cc s
  | .popPair qq => execPopPair qq s
  | .jpCond cc nn => execJpCond cc nn s
  | .jp nn => execJp nn s
  | .callCond cc nn => execCallCond cc nn s
  | .pushPair qq => execPushPair qq s
  | .rst t => execRst t s
  | .ret => execRet s
  | .call nn => execCall nn s
  | .outNA n => execOutNA n s
  | .inAN n => execInAN n s
  | .exx => execExx s
  | .exSpHl => execExSpHl s
  | .jpHl => execJpHl s
  | .exDeHl => execExDeHl s
  | .di => execDi s
  | .ldSpHl => execLdSpHl s
  | .ei => execEi s
  | .prefixCB op => runCbEntry op s
  | .prefixED _ => raiseFault .invalidOpcode s
  | .prefixDD _ => raiseFault .unimplementedUndocumented s
  | .prefixFD _ => raiseFault .unimplementedUndocumented s
  | .rlcReg r => execRlcReg r s
  | .rlcAtHl => execRlcAtHl s
  | .rrcReg r => execRrcReg r s
  | .rrcAtHl => execRrcAtHl s
  | .rlReg r => execRlReg r s
  | .rlAtHl => execRlAtHl s
  | .rrReg r => execRrReg r s
  | .rrAtHl => execRrAtHl s
  | .slaReg r => execSlaReg r s
  | .slaAtHl => execSlaAtHl s
  | .sraReg r => execSraReg r s
  | .sraAtHl => execSraAtHl s
  | .sllReg r => execSllReg r s
  | .sllAtHl => execSllAtHl s
  | .srlReg r => execSrlReg r s
  | .srlAtHl => execSrlAtHl s
  | .bitReg b r => execBitReg b r s
  | .bitAtHl b => execBitAtHl b s
  | .resReg b r => execResReg b r s
  | .resAtHl b => execResAtHl b s
  | .setReg b r => execSetReg b r s
  | .setAtHl b => execSetAtHl b s
  | .inRegC r => execInRegC r s
  | .inFC => execInFC s
  | .outCReg r => execOutCReg r s
  | .outC0 => execOutC0 s
  | .sbcHlPair rr => execSbcHlPair rr s
  | .adcHlPair rr => execAdcHlPair rr s
  | .ldMemPair nn rr => execLdMemPair nn rr s
  | .ldPairMem rr nn => execLdPairMem rr nn s
  | .neg y => execNeg y s
  | .retn y => execRetn y s
  | .reti => execReti s
  | .im0 y => execIm0 y s
  | .im1 y => execIm1 y s
  | .im2 y => execIm2 y s
  | .ldIA => execLdIA s
  | .ldRA => execLdRA s
  | .ldAI => execLdAI s
  | .ldAR => execLdAR s
  | .rrd => execRrd s
  | .rld => execRld s
  | .ldi => execLdi s
  | .cpi => execCpi s
  | .ini => execIni s
  | .outi => execOuti s
  | .ldd => execLdd s
  | .cpd => execCpd s
  | .ind => execInd s
  | .outd => execOutd s
  | .ldir => execLdir s
  | .cpir => execCpir s
  | .inir => execInir s
  | .otir => execOtir s
  | .lddr => execLddr s
  | .cpdr => execCpdr s
  | .indr => execIndr s
  | .otdr => execOtdr s
  | .addXrPair x pp => execAddXrPair x pp s
  | .ldXrNn x nn => execLdXrNn x nn s
  | .ldMemXr x nn => execLdMemXr x nn s
  | .incXr x => execIncXr x s
  | .decXr x => execDecXr x s
  | .ldXrMem x nn => execLdXrMem x nn s
  | .incXrHalf x p => execIncXrHalf x p s
  | .decXrHalf x p => execDecXrHalf x p s
  | .ldXrHalfN x p n => execLdXrHalfN x p n s
  | .incAtXr x d => execIncAtXr x d s
  | .decAtXr x d => execDecAtXr x d s
  | .ldAtXrN x d n => execLdAtXrN x d n s
  | .ldRegRegXr x r r' => execLdRegRegXr x r r' s
  | .ldRegAtXr x r d => execLdRegAtXr x r d s
  | .ldAtXrReg x d r => execLdAtXrReg x d r s
  | .addXrHalf x p => execAddXrHalf x p s
  | .addAtXr x d => execAddAtXr x d s
  | .adcXrHalf x p => execAdcXrHalf x p s
  | .adcAtXr x d => execAdcAtXr x d s
  | .subXrHalf x p => execSubXrHalf x p s
  | .subAtXr x d => execSubAtXr x d s
  | .sbcXrHalf x p => execSbcXrHalf x p s
  | .sbcAtXr x d => execSbcAtXr x d s
  | .andXrHalf x p => execAndXrHalf x p s
  | .andAtXr x d => execAndAtXr x d s
  | .xorXrHalf x p => execXorXrHalf x p s
  | .xorAtXr x d => execXorAtXr x d s
  | .orXrHalf x p => execOrXrHalf x p s
  | .orAtXr x d => execOrAtXr x d s
  | .cpXrHalf x p => execCpXrHalf x p s
  | .cpAtXr x d => execCpAtXr x d s
  | .prefixXrCB x d op => runXyCbEntry x d op s
  | .popXr x => execPopXr x s
  | .pushXr x => execPushXr x s
  | .exSpXr x => execExSpXr x s
  | .jpXr x => execJpXr x s
  | .ldSpXr x => execLdSpXr x s
  | .prefixXrXr _ i => (runRow i s).addT 4
  | .prefixXrED _ i => (runRow i s).addT 4
  | .prefixXrPass _ i => (runRow i s).addT 4
  | .rlcAtXr x d => execRlcAtXr x d s
  | .rlcAtXrReg x d r => execRlcAtXrReg x d r s
  | .rrcAtXr x d => execRrcAtXr x d s
  | .rrcAtXrReg x d r => execRrcAtXrReg x d r s
  | .rlAtXr x d => execRlAtXr x d s
  | .rlAtXrReg x d r => execRlAtXrReg x d r s
  | .rrAtXr x d => execRrAtXr x d s
  | .rrAtXrReg x d r => execRrAtXrReg x d r s
  | .slaAtXr x d => execSlaAtXr x d s
  | .slaAtXrReg x d r => execSlaAtXrReg x d r s
  | .sraAtXr x d => execSraAtXr x d s
  | .sraAtXrReg x d r => execSraAtXrReg x d r s
  | .sllAtXr x d => execSllAtXr x d s
  | .sllAtXrReg x d r => execSllAtXrReg x d r s
  | .srlAtXr x d => execSrlAtXr x d s
  | .srlAtXrReg x d r => execSrlAtXrReg x d r s
  | .bitAtXr x d b z => execBitAtXr x d b z s
  | .resAtXr x d b => execResAtXr x d b s
  | .resAtXrReg x d b r => execResAtXrReg x d b r s
  | .setAtXr x d b => execSetAtXr x d b s
  | .setAtXrReg x d b r => execSetAtXrReg x d b r s

/-- Fetch the rest of the instruction that begins with the two opcode bytes `lead`, already fetched, and run
it; a run of index prefixes that never ends does not return (log entry 11). -/
def runAfter (lead : List Byte) (s : State) : Result :=
  match decodeWith s.params.undocUnimpl (lead ++ s.window s.pc) with
  | .ok (i, _) => runRow i (s.fetchedRest i)
  | .error _ => .fault .endlessPrefixRun

/-- The row of prefix 0xCB with the opcode byte after it (30_encoding R107). -/
def execPrefixCB (op : Byte) (s : State) : Result := runCbEntry op s

/-- The row of prefix 0xED with the opcode byte after it: an unpopulated entry raises InvalidOpcode
(30_encoding R108, 60_exceptions R441). -/
def execPrefixED (op : Byte) (s : State) : Result := runAfter [0xED, op] s

/-- The row of prefix 0xDD with the byte after it: the entry of the index table with XR = IX; a member of
UNDOC_UNIMPL raises UnimplementedUndocumented (30_encoding R110 to R116, 60_exceptions R442). -/
def execPrefixDD (op : Byte) (s : State) : Result := runAfter [0xDD, op] s

/-- The row of prefix 0xFD with the byte after it: as 0xDD, with XR = IY. -/
def execPrefixFD (op : Byte) (s : State) : Result := runAfter [0xFD, op] s

/-- The row of an index prefix and 0xCB with the displacement and the opcode byte after it
(30_encoding R115). -/
def execPrefixXrCB (x : XR) (d op : Byte) (s : State) : Result := runXyCbEntry x d op s

/-- An index prefix before another index prefix: 4 T-states and no other effect (30_encoding R113). -/
def execPrefixXrXr (x : XR) (i : Instr) (s : State) : Result :=
  let _ := x
  (runRow i s).addT 4

/-- An index prefix before 0xED: 4 T-states and no other effect (30_encoding R114). -/
def execPrefixXrED (x : XR) (i : Instr) (s : State) : Result :=
  let _ := x
  (runRow i s).addT 4

/-- An index prefix before a base opcode that it does not modify: 4 T-states and no other effect
(30_encoding R112). -/
def execPrefixXrPass (x : XR) (i : Instr) (s : State) : Result :=
  let _ := x
  (runRow i s).addT 4

end Sys2Proof.Machine
end

