-- ==== Sys2Proof/Machine/Dispatch.lean ====
section
/-! DEFINITION. The dispatch: one arm per constructor of Instr, each one call of that instruction's meaning.

The state an arm receives is the one after the step has fetched the whole instruction (PC after its last
byte, R counted, 30_encoding R104, log entry 13). -/

namespace Sys2Proof.Machine

/-- What an instruction does once it has been fetched (60_exceptions R427). -/
def exec (i : Instr) (s : State) : Host.Outcome State Fault Refusal :=
  match i with
  | .nop => Sys2Proof.Machine.execNop s
  | .ldPairNn rr nn => Sys2Proof.Machine.execLdPairNn rr nn s
  | .ldPtrA rr => Sys2Proof.Machine.execLdPtrA rr s
  | .ldMemHl nn => Sys2Proof.Machine.execLdMemHl nn s
  | .ldMemA nn => Sys2Proof.Machine.execLdMemA nn s
  | .incPair rr => Sys2Proof.Machine.execIncPair rr s
  | .decPair rr => Sys2Proof.Machine.execDecPair rr s
  | .incReg r => Sys2Proof.Machine.execIncReg r s
  | .incAtHl => Sys2Proof.Machine.execIncAtHl s
  | .decReg r => Sys2Proof.Machine.execDecReg r s
  | .decAtHl => Sys2Proof.Machine.execDecAtHl s
  | .ldRegN r n => Sys2Proof.Machine.execLdRegN r n s
  | .ldAtHlN n => Sys2Proof.Machine.execLdAtHlN n s
  | .rlca => Sys2Proof.Machine.execRlca s
  | .rrca => Sys2Proof.Machine.execRrca s
  | .rla => Sys2Proof.Machine.execRla s
  | .rra => Sys2Proof.Machine.execRra s
  | .daa => Sys2Proof.Machine.execDaa s
  | .cpl => Sys2Proof.Machine.execCpl s
  | .scf => Sys2Proof.Machine.execScf s
  | .ccf => Sys2Proof.Machine.execCcf s
  | .exAfAf => Sys2Proof.Machine.execExAfAf s
  | .addHlPair rr => Sys2Proof.Machine.execAddHlPair rr s
  | .ldAPtr rr => Sys2Proof.Machine.execLdAPtr rr s
  | .ldHlMem nn => Sys2Proof.Machine.execLdHlMem nn s
  | .ldAMem nn => Sys2Proof.Machine.execLdAMem nn s
  | .djnz e => Sys2Proof.Machine.execDjnz e s
  | .jr e => Sys2Proof.Machine.execJr e s
  | .jrCond cc e => Sys2Proof.Machine.execJrCond cc e s
  | .ldRegReg r r' => Sys2Proof.Machine.execLdRegReg r r' s
  | .ldRegAtHl r => Sys2Proof.Machine.execLdRegAtHl r s
  | .ldAtHlReg r => Sys2Proof.Machine.execLdAtHlReg r s
  | .halt => Sys2Proof.Machine.execHalt s
  | .addReg r => Sys2Proof.Machine.execAddReg r s
  | .addAtHl => Sys2Proof.Machine.execAddAtHl s
  | .addN n => Sys2Proof.Machine.execAddN n s
  | .adcReg r => Sys2Proof.Machine.execAdcReg r s
  | .adcAtHl => Sys2Proof.Machine.execAdcAtHl s
  | .adcN n => Sys2Proof.Machine.execAdcN n s
  | .subReg r => Sys2Proof.Machine.execSubReg r s
  | .subAtHl => Sys2Proof.Machine.execSubAtHl s
  | .subN n => Sys2Proof.Machine.execSubN n s
  | .sbcReg r => Sys2Proof.Machine.execSbcReg r s
  | .sbcAtHl => Sys2Proof.Machine.execSbcAtHl s
  | .sbcN n => Sys2Proof.Machine.execSbcN n s
  | .andReg r => Sys2Proof.Machine.execAndReg r s
  | .andAtHl => Sys2Proof.Machine.execAndAtHl s
  | .andN n => Sys2Proof.Machine.execAndN n s
  | .xorReg r => Sys2Proof.Machine.execXorReg r s
  | .xorAtHl => Sys2Proof.Machine.execXorAtHl s
  | .xorN n => Sys2Proof.Machine.execXorN n s
  | .orReg r => Sys2Proof.Machine.execOrReg r s
  | .orAtHl => Sys2Proof.Machine.execOrAtHl s
  | .orN n => Sys2Proof.Machine.execOrN n s
  | .cpReg r => Sys2Proof.Machine.execCpReg r s
  | .cpAtHl => Sys2Proof.Machine.execCpAtHl s
  | .cpN n => Sys2Proof.Machine.execCpN n s
  | .retCond cc => Sys2Proof.Machine.execRetCond cc s
  | .popPair qq => Sys2Proof.Machine.execPopPair qq s
  | .jpCond cc nn => Sys2Proof.Machine.execJpCond cc nn s
  | .jp nn => Sys2Proof.Machine.execJp nn s
  | .callCond cc nn => Sys2Proof.Machine.execCallCond cc nn s
  | .pushPair qq => Sys2Proof.Machine.execPushPair qq s
  | .rst t => Sys2Proof.Machine.execRst t s
  | .ret => Sys2Proof.Machine.execRet s
  | .call nn => Sys2Proof.Machine.execCall nn s
  | .outNA n => Sys2Proof.Machine.execOutNA n s
  | .inAN n => Sys2Proof.Machine.execInAN n s
  | .exx => Sys2Proof.Machine.execExx s
  | .exSpHl => Sys2Proof.Machine.execExSpHl s
  | .jpHl => Sys2Proof.Machine.execJpHl s
  | .exDeHl => Sys2Proof.Machine.execExDeHl s
  | .di => Sys2Proof.Machine.execDi s
  | .ldSpHl => Sys2Proof.Machine.execLdSpHl s
  | .ei => Sys2Proof.Machine.execEi s
  | .prefixCB op => Sys2Proof.Machine.execPrefixCB op s
  | .prefixED op => Sys2Proof.Machine.execPrefixED op s
  | .prefixDD op => Sys2Proof.Machine.execPrefixDD op s
  | .prefixFD op => Sys2Proof.Machine.execPrefixFD op s
  | .rlcReg r => Sys2Proof.Machine.execRlcReg r s
  | .rlcAtHl => Sys2Proof.Machine.execRlcAtHl s
  | .rrcReg r => Sys2Proof.Machine.execRrcReg r s
  | .rrcAtHl => Sys2Proof.Machine.execRrcAtHl s
  | .rlReg r => Sys2Proof.Machine.execRlReg r s
  | .rlAtHl => Sys2Proof.Machine.execRlAtHl s
  | .rrReg r => Sys2Proof.Machine.execRrReg r s
  | .rrAtHl => Sys2Proof.Machine.execRrAtHl s
  | .slaReg r => Sys2Proof.Machine.execSlaReg r s
  | .slaAtHl => Sys2Proof.Machine.execSlaAtHl s
  | .sraReg r => Sys2Proof.Machine.execSraReg r s
  | .sraAtHl => Sys2Proof.Machine.execSraAtHl s
  | .sllReg r => Sys2Proof.Machine.execSllReg r s
  | .sllAtHl => Sys2Proof.Machine.execSllAtHl s
  | .srlReg r => Sys2Proof.Machine.execSrlReg r s
  | .srlAtHl => Sys2Proof.Machine.execSrlAtHl s
  | .bitReg b r => Sys2Proof.Machine.execBitReg b r s
  | .bitAtHl b => Sys2Proof.Machine.execBitAtHl b s
  | .resReg b r => Sys2Proof.Machine.execResReg b r s
  | .resAtHl b => Sys2Proof.Machine.execResAtHl b s
  | .setReg b r => Sys2Proof.Machine.execSetReg b r s
  | .setAtHl b => Sys2Proof.Machine.execSetAtHl b s
  | .inRegC r => Sys2Proof.Machine.execInRegC r s
  | .inFC => Sys2Proof.Machine.execInFC s
  | .outCReg r => Sys2Proof.Machine.execOutCReg r s
  | .outC0 => Sys2Proof.Machine.execOutC0 s
  | .sbcHlPair rr => Sys2Proof.Machine.execSbcHlPair rr s
  | .adcHlPair rr => Sys2Proof.Machine.execAdcHlPair rr s
  | .ldMemPair nn rr => Sys2Proof.Machine.execLdMemPair nn rr s
  | .ldPairMem rr nn => Sys2Proof.Machine.execLdPairMem rr nn s
  | .neg y => Sys2Proof.Machine.execNeg y s
  | .retn y => Sys2Proof.Machine.execRetn y s
  | .reti => Sys2Proof.Machine.execReti s
  | .im0 y => Sys2Proof.Machine.execIm0 y s
  | .im1 y => Sys2Proof.Machine.execIm1 y s
  | .im2 y => Sys2Proof.Machine.execIm2 y s
  | .ldIA => Sys2Proof.Machine.execLdIA s
  | .ldRA => Sys2Proof.Machine.execLdRA s
  | .ldAI => Sys2Proof.Machine.execLdAI s
  | .ldAR => Sys2Proof.Machine.execLdAR s
  | .rrd => Sys2Proof.Machine.execRrd s
  | .rld => Sys2Proof.Machine.execRld s
  | .ldi => Sys2Proof.Machine.execLdi s
  | .cpi => Sys2Proof.Machine.execCpi s
  | .ini => Sys2Proof.Machine.execIni s
  | .outi => Sys2Proof.Machine.execOuti s
  | .ldd => Sys2Proof.Machine.execLdd s
  | .cpd => Sys2Proof.Machine.execCpd s
  | .ind => Sys2Proof.Machine.execInd s
  | .outd => Sys2Proof.Machine.execOutd s
  | .ldir => Sys2Proof.Machine.execLdir s
  | .cpir => Sys2Proof.Machine.execCpir s
  | .inir => Sys2Proof.Machine.execInir s
  | .otir => Sys2Proof.Machine.execOtir s
  | .lddr => Sys2Proof.Machine.execLddr s
  | .cpdr => Sys2Proof.Machine.execCpdr s
  | .indr => Sys2Proof.Machine.execIndr s
  | .otdr => Sys2Proof.Machine.execOtdr s
  | .addXrPair x pp => Sys2Proof.Machine.execAddXrPair x pp s
  | .ldXrNn x nn => Sys2Proof.Machine.execLdXrNn x nn s
  | .ldMemXr x nn => Sys2Proof.Machine.execLdMemXr x nn s
  | .incXr x => Sys2Proof.Machine.execIncXr x s
  | .decXr x => Sys2Proof.Machine.execDecXr x s
  | .ldXrMem x nn => Sys2Proof.Machine.execLdXrMem x nn s
  | .incXrHalf x p => Sys2Proof.Machine.execIncXrHalf x p s
  | .decXrHalf x p => Sys2Proof.Machine.execDecXrHalf x p s
  | .ldXrHalfN x p n => Sys2Proof.Machine.execLdXrHalfN x p n s
  | .incAtXr x d => Sys2Proof.Machine.execIncAtXr x d s
  | .decAtXr x d => Sys2Proof.Machine.execDecAtXr x d s
  | .ldAtXrN x d n => Sys2Proof.Machine.execLdAtXrN x d n s
  | .ldRegRegXr x r r' => Sys2Proof.Machine.execLdRegRegXr x r r' s
  | .ldRegAtXr x r d => Sys2Proof.Machine.execLdRegAtXr x r d s
  | .ldAtXrReg x d r => Sys2Proof.Machine.execLdAtXrReg x d r s
  | .addXrHalf x p => Sys2Proof.Machine.execAddXrHalf x p s
  | .addAtXr x d => Sys2Proof.Machine.execAddAtXr x d s
  | .adcXrHalf x p => Sys2Proof.Machine.execAdcXrHalf x p s
  | .adcAtXr x d => Sys2Proof.Machine.execAdcAtXr x d s
  | .subXrHalf x p => Sys2Proof.Machine.execSubXrHalf x p s
  | .subAtXr x d => Sys2Proof.Machine.execSubAtXr x d s
  | .sbcXrHalf x p => Sys2Proof.Machine.execSbcXrHalf x p s
  | .sbcAtXr x d => Sys2Proof.Machine.execSbcAtXr x d s
  | .andXrHalf x p => Sys2Proof.Machine.execAndXrHalf x p s
  | .andAtXr x d => Sys2Proof.Machine.execAndAtXr x d s
  | .xorXrHalf x p => Sys2Proof.Machine.execXorXrHalf x p s
  | .xorAtXr x d => Sys2Proof.Machine.execXorAtXr x d s
  | .orXrHalf x p => Sys2Proof.Machine.execOrXrHalf x p s
  | .orAtXr x d => Sys2Proof.Machine.execOrAtXr x d s
  | .cpXrHalf x p => Sys2Proof.Machine.execCpXrHalf x p s
  | .cpAtXr x d => Sys2Proof.Machine.execCpAtXr x d s
  | .prefixXrCB x d op => Sys2Proof.Machine.execPrefixXrCB x d op s
  | .popXr x => Sys2Proof.Machine.execPopXr x s
  | .pushXr x => Sys2Proof.Machine.execPushXr x s
  | .exSpXr x => Sys2Proof.Machine.execExSpXr x s
  | .jpXr x => Sys2Proof.Machine.execJpXr x s
  | .ldSpXr x => Sys2Proof.Machine.execLdSpXr x s
  | .prefixXrXr x inner => Sys2Proof.Machine.execPrefixXrXr x inner s
  | .prefixXrED x inner => Sys2Proof.Machine.execPrefixXrED x inner s
  | .prefixXrPass x inner => Sys2Proof.Machine.execPrefixXrPass x inner s
  | .rlcAtXr x d => Sys2Proof.Machine.execRlcAtXr x d s
  | .rlcAtXrReg x d r => Sys2Proof.Machine.execRlcAtXrReg x d r s
  | .rrcAtXr x d => Sys2Proof.Machine.execRrcAtXr x d s
  | .rrcAtXrReg x d r => Sys2Proof.Machine.execRrcAtXrReg x d r s
  | .rlAtXr x d => Sys2Proof.Machine.execRlAtXr x d s
  | .rlAtXrReg x d r => Sys2Proof.Machine.execRlAtXrReg x d r s
  | .rrAtXr x d => Sys2Proof.Machine.execRrAtXr x d s
  | .rrAtXrReg x d r => Sys2Proof.Machine.execRrAtXrReg x d r s
  | .slaAtXr x d => Sys2Proof.Machine.execSlaAtXr x d s
  | .slaAtXrReg x d r => Sys2Proof.Machine.execSlaAtXrReg x d r s
  | .sraAtXr x d => Sys2Proof.Machine.execSraAtXr x d s
  | .sraAtXrReg x d r => Sys2Proof.Machine.execSraAtXrReg x d r s
  | .sllAtXr x d => Sys2Proof.Machine.execSllAtXr x d s
  | .sllAtXrReg x d r => Sys2Proof.Machine.execSllAtXrReg x d r s
  | .srlAtXr x d => Sys2Proof.Machine.execSrlAtXr x d s
  | .srlAtXrReg x d r => Sys2Proof.Machine.execSrlAtXrReg x d r s
  | .bitAtXr x d b z => Sys2Proof.Machine.execBitAtXr x d b z s
  | .resAtXr x d b => Sys2Proof.Machine.execResAtXr x d b s
  | .resAtXrReg x d b r => Sys2Proof.Machine.execResAtXrReg x d b r s
  | .setAtXr x d b => Sys2Proof.Machine.execSetAtXr x d b s
  | .setAtXrReg x d b r => Sys2Proof.Machine.execSetAtXrReg x d b r s

end Sys2Proof.Machine
end

