-- ==== Sys2Proof/Machine/Tick.lean ====
section
/-! DEFINITION. The parts of a step in order (60_exceptions R420), and the placing of an instruction where
the step fetches it. -/

namespace Sys2Proof.Machine

/-- A step in a state with no fault: an NMI first, then the maskable interrupt, then a halted step, then one
instruction (60_exceptions R420, R424). `s` is the state at the start of the step. -/
def State.advance (s : State) : Result :=
  let s0 := s.beginStep
  if s.nmiPending then .next s0.acceptNmi
  else if s.acceptsInt then .next (s0.acceptInt s.busByte)
  else
    let s1 := s0.tickEi
    if s.halted then .next s1.haltedStep
    else
      match s.instrAt s.pc with
      | .ok i => settleFault s (exec i (s1.fetched i))
      | .error _ => .fault .endlessPrefixRun

/-- One step: a faulted state has none (60_exceptions R443, log entry 12). -/
def State.tick (s : State) : Result :=
  match s.fault with
  | some _ => .fault .faulted
  | none => s.advance

/-- Store bytes at an address and the addresses after it. -/
def State.storeBytes : List Byte → Word → State → State
  | [], _, s => s
  | v :: rest, a, s => State.storeBytes rest (a + 1) { s with mem := memSet s.mem a.toNat v }

/-- `s` with the instruction of an opcode-table word stored at PC, and nothing that would keep the very next
step from fetching it: the RAM device, no fault, no pending NMI, no asserted INT, not halted
(log entry 19). -/
def State.placeWord (s : State) (nbits w : Nat) : State :=
  State.storeBytes (tableBytes nbits w) s.pc
    { s with
      fault := none, nmiPending := false, intLine := false, halted := false
      params := { s.params with memDevice := .ram } }

end Sys2Proof.Machine
end

