-- ==== Sys2Proof/Machine/Step.lean ====
section
/-! DEFINITION. The step function of the machine, under the names the host uses. -/

namespace Sys2Proof.Machine

/-- One step of the Execution Engine (60_exceptions R420). -/
def step (s : State) : Host.Outcome State Fault Refusal := s.tick

/-- `s` with an opcode-table word placed where `step` fetches its next instruction (log entry 19). -/
def State.withFetchWord (s : State) (nbits w : Nat) : State := s.placeWord nbits w

end Sys2Proof.Machine
end

