-- ==== Sys2Proof/Machine/HostOps.lean ====
section
/-! DEFINITION. What the host may do between steps (60_exceptions R422, R423, R450; 10_state R57;
70_reset_and_hazards R470, R472).

These are functions of their own beside the step (log entry 17): no run of `step` alone performs one. -/

namespace Sys2Proof.Machine

/-- `POWER_ON_REGS` (70_reset_and_hazards R472): any values. -/
structure PowerOnRegs where
  a : Byte
  f : Byte
  b : Byte
  c : Byte
  d : Byte
  e : Byte
  h : Byte
  l : Byte
  a' : Byte
  f' : Byte
  b' : Byte
  c' : Byte
  d' : Byte
  e' : Byte
  h' : Byte
  l' : Byte
  ix : Word
  iy : Word
  sp : Word
  deriving DecidableEq, Repr

/-- The 8-bit registers a host accessor reaches (10_state R57). -/
inductive Acc8 where
  | a | f | b | c | d | e | h | l
  | a' | f' | b' | c' | d' | e' | h' | l'
  | i | r
  deriving DecidableEq, Repr

/-- The 16-bit registers a host accessor reaches. -/
inductive Acc16 where
  | ix | iy | sp | pc
  deriving DecidableEq, Repr

/-- The control bits a host accessor reaches (10_state R57). -/
inductive AccBit where
  | iff1 | iff2 | halted | nmiPending
  deriving DecidableEq, Repr

/-- An action of the host or of a device between two steps. -/
inductive HostAction where
  /-- The RESET input (70_reset_and_hazards R470). -/
  | reset
  /-- Power-on initialization (70_reset_and_hazards R472). -/
  | powerOn (regs : PowerOnRegs)
  /-- An edge of the NMI input (60_exceptions R423). -/
  | assertNmi
  /-- The level of the INT input (60_exceptions R422). -/
  | setInt (level : Bool)
  /-- The byte a device drives for an IM 2 acceptance (60_exceptions R422). -/
  | setBusByte (v : Byte)
  /-- Accessor writes (10_state R57). -/
  | write8 (reg : Acc8) (v : Byte)
  | write16 (reg : Acc16) (v : Word)
  | writeBit (reg : AccBit) (v : Bool)
  /-- A write of IM, held in 2 bits (10_state R48). -/
  | writeIm (v : BitVec 2)
  | writeEiDelay (v : Nat)
  /-- A byte of the memory device's image (20_memory R74). -/
  | loadByte (a : Word) (v : Byte)
  deriving DecidableEq, Repr

/-- `Reset`: the general registers, their shadows, IX, IY and SP keep their values
(70_reset_and_hazards R470). -/
def State.resetInput (s : State) : State :=
  { s with
    iff1 := false, iff2 := false, halted := false, eiDelay := 0, nmiPending := false, fault := none
    pc := 0x0000, i := 0x00, r := 0x00, im := .im0 }

/-- Power-on initialization: `Reset`, then the registers of `POWER_ON_REGS` (70_reset_and_hazards R472). -/
def State.powerOn (s : State) (p : PowerOnRegs) : State :=
  { s.resetInput with
    a := p.a, f := p.f, b := p.b, c := p.c, d := p.d, e := p.e, h := p.h, l := p.l
    a' := p.a', f' := p.f', b' := p.b', c' := p.c', d' := p.d', e' := p.e', h' := p.h', l' := p.l'
    ix := p.ix, iy := p.iy, sp := p.sp }

/-- The machine after power-on initialization with its parameters and POWER_ON_REGS given (00_scope R8). -/
def State.launch (p : Params) (regs : PowerOnRegs) : State := { State.reset with params := p }.powerOn regs

/-- An accessor write of an 8-bit register. -/
def State.write8 (s : State) (reg : Acc8) (v : Byte) : State :=
  match reg with
  | .a => { s with a := v }
  | .f => { s with f := v }
  | .b => { s with b := v }
  | .c => { s with c := v }
  | .d => { s with d := v }
  | .e => { s with e := v }
  | .h => { s with h := v }
  | .l => { s with l := v }
  | .a' => { s with a' := v }
  | .f' => { s with f' := v }
  | .b' => { s with b' := v }
  | .c' => { s with c' := v }
  | .d' => { s with d' := v }
  | .e' => { s with e' := v }
  | .h' => { s with h' := v }
  | .l' => { s with l' := v }
  | .i => { s with i := v }
  | .r => { s with r := v }

/-- An accessor write of a 16-bit register. -/
def State.write16 (s : State) (reg : Acc16) (v : Word) : State :=
  match reg with
  | .ix => { s with ix := v }
  | .iy => { s with iy := v }
  | .sp => { s with sp := v }
  | .pc => { s with pc := v }

/-- An accessor write of a control bit. -/
def State.writeBit (s : State) (reg : AccBit) (v : Bool) : State :=
  match reg with
  | .iff1 => { s with iff1 := v }
  | .iff2 => { s with iff2 := v }
  | .halted => { s with halted := v }
  | .nmiPending => { s with nmiPending := v }

/-- An accessor write of IM: 3 is refused (10_state R48, log entry 16). -/
def State.writeIm (s : State) (v : BitVec 2) : Result :=
  match v.toNat with
  | 0 => .next { s with im := .im0 }
  | 1 => .next { s with im := .im1 }
  | 2 => .next { s with im := .im2 }
  | _ => .refused .illegalHostWrite

/-- An accessor write of ei_delay: more than 1 is refused (60_exceptions R450). -/
def State.writeEiDelay (s : State) (v : Nat) : Result :=
  if v ≤ 1 then .next { s with eiDelay := v } else .refused .illegalHostWrite

/-- An action between two steps. -/
def hostAct (act : HostAction) (s : State) : Result :=
  match act with
  | .reset => .next s.resetInput
  | .powerOn regs => .next (s.powerOn regs)
  | .assertNmi => .next { s with nmiPending := true }
  | .setInt level => .next { s with intLine := level }
  | .setBusByte v => .next { s with busByte := v }
  | .write8 reg v => .next (s.write8 reg v)
  | .write16 reg v => .next (s.write16 reg v)
  | .writeBit reg v => .next (s.writeBit reg v)
  | .writeIm v => s.writeIm v
  | .writeEiDelay v => s.writeEiDelay v
  | .loadByte a v => .next { s with mem := memSet s.mem a.toNat v }

end Sys2Proof.Machine
end

