-- ==== Sys2Proof/Machine/Run.lean ====
section
/-! DEFINITION. Runs: steps with host actions between them, the end of a run, and what is observed there
(60_exceptions R450, R451, R452). -/

namespace Sys2Proof.Machine

/-- What happens next in a run: a step, or an action of the host between two steps (60_exceptions R450). -/
inductive Move where
  | step
  | host (act : HostAction)
  deriving DecidableEq, Repr

/-- One move. -/
def move (m : Move) (s : State) : Result :=
  match m with
  | .step => step s
  | .host act => hostAct act s

/-- The state after moves, none where one of them answers no next state. -/
def runMoves : List Move → State → Option State
  | [], s => some s
  | m :: rest, s =>
    match move m s with
    | .next t => runMoves rest t
    | .fault _ => none
    | .refused _ => none

/-- The two ends of a run (60_exceptions R451). -/
inductive Ending where
  /-- A fault record is set: the run has failed. -/
  | faulted
  /-- Halted with IFF1 clear and no NMI pending. -/
  | quiescent
  deriving DecidableEq, Repr

/-- Which end a state is, if no further NMI is asserted. -/
def State.ending (s : State) : Option Ending :=
  if s.fault.isSome then some .faulted
  else if s.halted && !s.iff1 && !s.nmiPending then some .quiescent
  else none

/-- The host asserts no NMI in these moves. -/
def noNmi (moves : List Move) : Bool := moves.all fun m => m != .host .assertNmi

/-- Whether a run is at its end, with these moves to come: a quiescent state is one if the host asserts no
further NMI (60_exceptions R451). -/
def State.atEnd (s : State) (moves : List Move) : Bool :=
  match s.ending with
  | some .faulted => true
  | some .quiescent => noNmi moves
  | none => false

/-- The end of a run: the first state that is one; none where the moves reach none, and the run has then been
cut, not ended (60_exceptions R451). -/
def runEnd : List Move → State → Option State
  | [], s => if s.atEnd [] then some s else none
  | m :: rest, s =>
    if s.atEnd (m :: rest) then some s
    else
      match move m s with
      | .next t => runEnd rest t
      | .fault _ => none
      | .refused _ => none

/-- The observation at the end of a run: the state without R and without the T-states; of the model's own
fields, the inputs, the outputs and the draw count are left out too. A faulted end refutes every observation,
so it has none (60_exceptions R451). -/
def State.observation (s : State) : Option State :=
  match s.ending with
  | some .quiescent =>
    some { s with r := 0, tstates := none, bus := [], draws := 0, intLine := false, busByte := 0 }
  | some .faulted => none
  | none => none

/-- The observation of a run. -/
def runObservation (moves : List Move) (s : State) : Option State := (runEnd moves s).bind State.observation

end Sys2Proof.Machine
end

