-- ==== Sys2Proof/WellFormed.lean ====
section
/-! DEFINITION. Which terms of Instr are instructions: those the decoder hands out.

A term is well-formed when its operand fields are ones its row admits and, for a row of a prefix byte, when
its words are no other row's (log entry 15). -/

namespace Sys2Proof

/-- The opcodes the ED table has an entry for (30_encoding R108). -/
def edPopulated (op : Byte) : Bool :=
  match (opX op).toNat with
  | 1 => (opZ op).toNat != 7 || decide ((opY op).toNat < 6)
  | 2 => decide (4 ≤ (opY op).toNat) && decide ((opZ op).toNat < 4)
  | _ => false

/-- H or L. -/
def Reg8.isHl (r : Reg8) : Bool := r == .h || r == .l

/-- The base-table instructions with an operand that an index prefix substitutes: HL as a 16-bit operand,
(HL), H or L (30_encoding R110). EX DE,HL and EXX are not substituted. -/
def Instr.substituted : Instr → Bool
  | .ldPairNn rr _ => rr == .hl
  | .ldMemHl _ => true
  | .ldHlMem _ => true
  | .incPair rr => rr == .hl
  | .decPair rr => rr == .hl
  | .incReg r => r.isHl
  | .incAtHl => true
  | .decReg r => r.isHl
  | .decAtHl => true
  | .ldRegN r _ => r.isHl
  | .ldAtHlN _ => true
  | .addHlPair _ => true
  | .ldRegReg r r' => r.isHl || r'.isHl
  | .ldRegAtHl _ => true
  | .ldAtHlReg _ => true
  | .addReg r => r.isHl
  | .addAtHl => true
  | .adcReg r => r.isHl
  | .adcAtHl => true
  | .subReg r => r.isHl
  | .subAtHl => true
  | .sbcReg r => r.isHl
  | .sbcAtHl => true
  | .andReg r => r.isHl
  | .andAtHl => true
  | .xorReg r => r.isHl
  | .xorAtHl => true
  | .orReg r => r.isHl
  | .orAtHl => true
  | .cpReg r => r.isHl
  | .cpAtHl => true
  | .popPair qq => qq == .hl
  | .pushPair qq => qq == .hl
  | .exSpHl => true
  | .jpHl => true
  | .ldSpHl => true
  | _ => false

/-- Whether the bytes of an instruction select a member of UNDOC_UNIMPL (30_encoding R105, R116): the bytes
0xCB, 0xDD, 0xED and 0xFD after an index prefix are looked at first, so they select none. -/
def undocHit (u : List (XR × Byte)) : List Byte → Bool
  | p :: op :: _ =>
    match xrOfLead p with
    | some x => u.contains (x, op) && !([0xCB, 0xDD, 0xED, 0xFD] : List Byte).contains op
    | none => false
  | _ => false

/-- The operand fields and inner instructions that a row admits. -/
def Instr.fieldsOk : Instr → Bool
  | .retn y => y != 1
  | .im0 y => y == 0 || y == 1 || y == 4 || y == 5
  | .im1 y => y == 2 || y == 6
  | .im2 y => y == 3 || y == 7
  | .ldRegRegXr _ r r' => r.isHl || r'.isHl
  | .prefixCB _ => false
  | .prefixXrCB _ _ _ => false
  | .prefixED op => !edPopulated op
  | .prefixXrXr _ i => i.lead == .index && i.fieldsOk
  | .prefixXrED _ i => i.lead == .ed && i.fieldsOk
  | .prefixXrPass _ i => i.lead == .plain && !i.substituted && i.fieldsOk
  | _ => true

/-- Whether a term agrees with UNDOC_UNIMPL: the rows of the index prefixes stand for its members, and no
other row of the index table does. -/
def Instr.slotOk (u : List (XR × Byte)) : Instr → Bool
  | .prefixDD op => undocHit u [0xDD, op]
  | .prefixFD op => undocHit u [0xFD, op]
  | .prefixXrXr _ i => i.slotOk u
  | i => !undocHit u (encode i)

/-- Well-formedness with UNDOC_UNIMPL given. -/
def Instr.wellFormedWith (u : List (XR × Byte)) (i : Instr) : Bool := i.fieldsOk && i.slotOk u

/-- Well-formedness on this hardware: UNDOC_UNIMPL at the spec's value. -/
def Instr.wellFormed (i : Instr) : Bool := i.wellFormedWith Config.undocUnimpl

end Sys2Proof
end

