-- ==== Sys2Proof/Safety.lean ====
section
/-! DEFINITION. The terms in which claims about the machine are stated: how an instruction is encoded and
fetched, what a memory holds after a list of writes, the flags one by one, the operand forms that families
share, the ends of a run as propositions, and the invariants of the step. -/

namespace Sys2Proof.Machine

/-! ### Encodings (30_encoding R100 to R104) -/

/-- The instruction is these bytes, in fetch order, and the first `m1` of them are opcode fetches: the rest
are operand reads. -/
def Encoded (i : Instr) (bytes : List Byte) (m1 : Nat) : Prop := encode i = bytes ∧ i.m1 = m1

/-- The rp field of a pair (30_encoding R102). -/
def pairCode : Pair → BitVec 2
  | .bc => 0
  | .de => 1
  | .hl => 2
  | .sp => 3

/-- The rp2 field of a pair (30_encoding R102). -/
def stackPairCode : StackPair → BitVec 2
  | .bc => 0
  | .de => 1
  | .hl => 2
  | .af => 3

/-- The pp field of a pair (30_encoding R102). -/
def idxPairCode : IdxPair → BitVec 2
  | .bc => 0
  | .de => 1
  | .xr => 2
  | .sp => 3

/-- The field of a pointer pair: 0 for BC, 1 for DE (40_load8 R148). -/
def ptrPairCode : PtrPair → BitVec 1
  | .bc => 0
  | .de => 1

/-- The cc field of a condition (10_state R41). -/
def condCode : Cond → BitVec 3
  | .nz => 0
  | .z => 1
  | .nc => 2
  | .c => 3
  | .po => 4
  | .pe => 5
  | .p => 6
  | .m => 7

/-- The field of a JR condition (48_jump_call R363). -/
def jrCondCode : JrCond → BitVec 2
  | .nz => 0
  | .z => 1
  | .nc => 2
  | .c => 3

/-- The bit that tells XRH from XRL (30_encoding R111). -/
def halfCode : Half → BitVec 1
  | .hi => 0
  | .lo => 1

/-- The prefix byte of an index register (30_encoding R110). -/
def xrCode : XR → Byte
  | .ix => 0xDD
  | .iy => 0xFD

/-- The alu field (30_encoding R102). -/
def aluCode : AluOp → BitVec 3
  | .add => 0
  | .adc => 1
  | .sub => 2
  | .sbc => 3
  | .and => 4
  | .xor => 5
  | .or => 6
  | .cp => 7

/-- The rot field (30_encoding R102). -/
def rotCode : Rot → BitVec 3
  | .rlc => 0
  | .rrc => 1
  | .rl => 2
  | .rr => 3
  | .sla => 4
  | .sra => 5
  | .sll => 6
  | .srl => 7

/-! ### Memory after writes -/

/-- The last byte that a list of writes, oldest first, gives an address. -/
def lastWrite : List (Word × Byte) → Word → Option Byte
  | [], _ => none
  | (b, v) :: rest, a =>
    match lastWrite rest a with
    | some w => some w
    | none => if a = b then some v else none

/-- Memory after is memory before with these bytes written in this order: every other address holds what it
did. With no writes, every address does. What an address holds is what the RAM device answers
(`Obligations.MemoryReadsBackWrites`). -/
def Wrote (s t : State) (writes : List (Word × Byte)) : Prop :=
  ∀ a, t.cell a = (lastWrite writes a).getD (s.cell a)

/-! ### Flags, one by one (10_state R38) -/

/-- The eight bits of a flag byte. -/
def FlagsAre (f : Byte) (s z y h x pv n c : Bool) : Prop :=
  f.getLsbD 7 = s ∧ f.getLsbD 6 = z ∧ f.getLsbD 5 = y ∧ f.getLsbD 4 = h ∧
    f.getLsbD 3 = x ∧ f.getLsbD 2 = pv ∧ f.getLsbD 1 = n ∧ f.getLsbD 0 = c

/-- The number of 1 bits of a byte. -/
def ones (v : Byte) : Nat := ((List.range 8).map fun k => (v.getLsbD k).toNat).sum

/-- Even parity (00_scope R13). -/
def evenParity (v : Byte) : Bool := ones v % 2 == 0

/-! ### Transactions -/

/-- An operand or data read. -/
def mr (a : Word) (v : Byte) : BusEvent := { kind := .mr, addr := a, data := v }

/-- A memory write. -/
def mw (a : Word) (v : Byte) : BusEvent := { kind := .mw, addr := a, data := v }

/-- An I/O read. -/
def ior (a : Word) (v : Byte) : BusEvent := { kind := .ior, addr := a, data := v }

/-- An I/O write. -/
def iow (a : Word) (v : Byte) : BusEvent := { kind := .iow, addr := a, data := v }

/-! ### The accumulator operations by operand form (43_alu8 R232) -/

/-- The source operand s. -/
inductive AluSrc where
  | reg (r : Reg8)
  | imm (n : Byte)
  | atHl
  | atXr (x : XR) (d : Byte)
  | half (x : XR) (p : Half)
  deriving DecidableEq, Repr

/-- The value of s. -/
def AluSrc.value (src : AluSrc) (s : State) : Byte :=
  match src with
  | .reg r => s.reg8 r
  | .imm n => n
  | .atHl => s.byteAt s.hl
  | .atXr x d => s.byteAt (s.xr x + d.signExtend 16)
  | .half x p => s.xrHalf x p

/-- The data transactions of s. -/
def AluSrc.reads (src : AluSrc) (s : State) : List BusEvent :=
  match src with
  | .reg _ => []
  | .imm _ => []
  | .atHl => [mr s.hl (s.byteAt s.hl)]
  | .atXr x d => [mr (s.xr x + d.signExtend 16) (s.byteAt (s.xr x + d.signExtend 16))]
  | .half _ _ => []

/-- The T-states of the form. -/
def AluSrc.cost : AluSrc → Nat
  | .reg _ => 4
  | .imm _ => 7
  | .atHl => 7
  | .atXr _ _ => 19
  | .half _ _ => 8

/-- The bytes of the form. -/
def AluSrc.bytes (src : AluSrc) (op : AluOp) : List Byte :=
  match src with
  | .reg r => [0b10#2 ++ aluCode op ++ r.code]
  | .imm n => [0b11#2 ++ aluCode op ++ 0b110#3, n]
  | .atHl => [0b10#2 ++ aluCode op ++ 0b110#3]
  | .atXr x d => [xrCode x, 0b10#2 ++ aluCode op ++ 0b110#3, d]
  | .half x p => [xrCode x, 0b10#2 ++ aluCode op ++ 0b10#2 ++ halfCode p]

/-- The opcode fetches of the form. -/
def AluSrc.m1 : AluSrc → Nat
  | .reg _ => 1
  | .imm _ => 1
  | .atHl => 1
  | .atXr _ _ => 2
  | .half _ _ => 2

/-- The instruction of an accumulator operation on a form of s: forty constructors. -/
def aluInstr : AluOp → AluSrc → Instr
  | .add, .reg r => .addReg r
  | .add, .imm n => .addN n
  | .add, .atHl => .addAtHl
  | .add, .atXr x d => .addAtXr x d
  | .add, .half x p => .addXrHalf x p
  | .adc, .reg r => .adcReg r
  | .adc, .imm n => .adcN n
  | .adc, .atHl => .adcAtHl
  | .adc, .atXr x d => .adcAtXr x d
  | .adc, .half x p => .adcXrHalf x p
  | .sub, .reg r => .subReg r
  | .sub, .imm n => .subN n
  | .sub, .atHl => .subAtHl
  | .sub, .atXr x d => .subAtXr x d
  | .sub, .half x p => .subXrHalf x p
  | .sbc, .reg r => .sbcReg r
  | .sbc, .imm n => .sbcN n
  | .sbc, .atHl => .sbcAtHl
  | .sbc, .atXr x d => .sbcAtXr x d
  | .sbc, .half x p => .sbcXrHalf x p
  | .and, .reg r => .andReg r
  | .and, .imm n => .andN n
  | .and, .atHl => .andAtHl
  | .and, .atXr x d => .andAtXr x d
  | .and, .half x p => .andXrHalf x p
  | .xor, .reg r => .xorReg r
  | .xor, .imm n => .xorN n
  | .xor, .atHl => .xorAtHl
  | .xor, .atXr x d => .xorAtXr x d
  | .xor, .half x p => .xorXrHalf x p
  | .or, .reg r => .orReg r
  | .or, .imm n => .orN n
  | .or, .atHl => .orAtHl
  | .or, .atXr x d => .orAtXr x d
  | .or, .half x p => .orXrHalf x p
  | .cp, .reg r => .cpReg r
  | .cp, .imm n => .cpN n
  | .cp, .atHl => .cpAtHl
  | .cp, .atXr x d => .cpAtXr x d
  | .cp, .half x p => .cpXrHalf x p

/-! ### The operand m of INC, DEC and the rotates (43_alu8 R241, 46_rotate_shift R314) -/

/-- The operand m of a read-modify-write instruction. -/
inductive Operand where
  | reg (r : Reg8)
  | atHl
  | atXr (x : XR) (d : Byte)
  | half (x : XR) (p : Half)
  /-- (XR+d) with the result copied to a register. -/
  | copy (x : XR) (d : Byte) (r : Reg8)
  deriving DecidableEq, Repr

/-- The address of a memory operand; none for a register. -/
def Operand.addr (m : Operand) (s : State) : Option Word :=
  match m with
  | .reg _ => none
  | .atHl => some s.hl
  | .atXr x d => some (s.xr x + d.signExtend 16)
  | .half _ _ => none
  | .copy x d _ => some (s.xr x + d.signExtend 16)

/-- The value of m. -/
def Operand.value (m : Operand) (s : State) : Byte :=
  match m with
  | .reg r => s.reg8 r
  | .atHl => s.byteAt s.hl
  | .atXr x d => s.byteAt (s.xr x + d.signExtend 16)
  | .half x p => s.xrHalf x p
  | .copy x d _ => s.byteAt (s.xr x + d.signExtend 16)

/-- What writing a result to m does to the registers. -/
def Operand.setReg (m : Operand) (s : State) (res : Byte) : State :=
  match m with
  | .reg r => s.setReg8 r res
  | .atHl => s
  | .atXr _ _ => s
  | .half x p => s.setXrHalf x p res
  | .copy _ _ r => s.setReg8 r res

/-- The data transactions of m: read, then write, at the same address. -/
def Operand.events (m : Operand) (s : State) (res : Byte) : List BusEvent :=
  match m.addr s with
  | none => []
  | some a => [mr a (s.byteAt a), mw a res]

/-- The bytes of memory that writing a result to m writes. -/
def Operand.writes (m : Operand) (s : State) (res : Byte) : List (Word × Byte) :=
  match m.addr s with
  | none => []
  | some a => [(a, res)]

/-- `t` is `s` with `res` written to the operand m, `f` in F, and the cost: no other register, flag or byte
of memory differs. -/
def Modified (m : Operand) (s t : State) (res f : Byte) (cost : Nat) : Prop :=
  t = { m.setReg s res with
    f := f, mem := t.mem, bus := s.bus ++ m.events s res, tstates := some cost } ∧
  Wrote s t (m.writes s res)

/-- INC m and DEC m; the form with a copy is none of them. -/
def incInstr : Operand → Option Instr
  | .reg r => some (.incReg r)
  | .atHl => some .incAtHl
  | .atXr x d => some (.incAtXr x d)
  | .half x p => some (.incXrHalf x p)
  | .copy _ _ _ => none

/-- DEC m. -/
def decInstr : Operand → Option Instr
  | .reg r => some (.decReg r)
  | .atHl => some .decAtHl
  | .atXr x d => some (.decAtXr x d)
  | .half x p => some (.decXrHalf x p)
  | .copy _ _ _ => none

/-- The T-states of INC m and DEC m. -/
def Operand.incCost : Operand → Nat
  | .reg _ => 4
  | .atHl => 11
  | .atXr _ _ => 23
  | .half _ _ => 8
  | .copy _ _ _ => 0

/-- The bytes of INC m (`last` = 100) and DEC m (`last` = 101). -/
def Operand.incBytes (m : Operand) (last : BitVec 3) : List Byte :=
  match m with
  | .reg r => [0b00#2 ++ r.code ++ last]
  | .atHl => [0b00110#5 ++ last]
  | .atXr x d => [xrCode x, 0b00110#5 ++ last, d]
  | .half x p => [xrCode x, 0b0010#4 ++ halfCode p ++ last]
  | .copy _ _ _ => []

/-- The opcode fetches of INC m and DEC m. -/
def Operand.incM1 : Operand → Nat
  | .reg _ => 1
  | .atHl => 1
  | .atXr _ _ => 2
  | .half _ _ => 2
  | .copy _ _ _ => 0

/-- The CB rotate or shift of an operand: thirty-two constructors. A byte of an index register is no operand
of them. -/
def rotInstr : Rot → Operand → Option Instr
  | .rlc, .reg r => some (.rlcReg r)
  | .rlc, .atHl => some .rlcAtHl
  | .rlc, .atXr x d => some (.rlcAtXr x d)
  | .rlc, .half _ _ => none
  | .rlc, .copy x d r => some (.rlcAtXrReg x d r)
  | .rrc, .reg r => some (.rrcReg r)
  | .rrc, .atHl => some .rrcAtHl
  | .rrc, .atXr x d => some (.rrcAtXr x d)
  | .rrc, .half _ _ => none
  | .rrc, .copy x d r => some (.rrcAtXrReg x d r)
  | .rl, .reg r => some (.rlReg r)
  | .rl, .atHl => some .rlAtHl
  | .rl, .atXr x d => some (.rlAtXr x d)
  | .rl, .half _ _ => none
  | .rl, .copy x d r => some (.rlAtXrReg x d r)
  | .rr, .reg r => some (.rrReg r)
  | .rr, .atHl => some .rrAtHl
  | .rr, .atXr x d => some (.rrAtXr x d)
  | .rr, .half _ _ => none
  | .rr, .copy x d r => some (.rrAtXrReg x d r)
  | .sla, .reg r => some (.slaReg r)
  | .sla, .atHl => some .slaAtHl
  | .sla, .atXr x d => some (.slaAtXr x d)
  | .sla, .half _ _ => none
  | .sla, .copy x d r => some (.slaAtXrReg x d r)
  | .sra, .reg r => some (.sraReg r)
  | .sra, .atHl => some .sraAtHl
  | .sra, .atXr x d => some (.sraAtXr x d)
  | .sra, .half _ _ => none
  | .sra, .copy x d r => some (.sraAtXrReg x d r)
  | .sll, .reg r => some (.sllReg r)
  | .sll, .atHl => some .sllAtHl
  | .sll, .atXr x d => some (.sllAtXr x d)
  | .sll, .half _ _ => none
  | .sll, .copy x d r => some (.sllAtXrReg x d r)
  | .srl, .reg r => some (.srlReg r)
  | .srl, .atHl => some .srlAtHl
  | .srl, .atXr x d => some (.srlAtXr x d)
  | .srl, .half _ _ => none
  | .srl, .copy x d r => some (.srlAtXrReg x d r)

/-- What a rotate or shift makes of a byte and a carry, as bits moved (46_rotate_shift R315 to R322). -/
def rotated (k : Rot) (v : Byte) (c : Bool) : Byte :=
  match k with
  | .rlc => v.extractLsb' 0 7 ++ v.extractLsb' 7 1
  | .rrc => v.extractLsb' 0 1 ++ v.extractLsb' 1 7
  | .rl => v.extractLsb' 0 7 ++ BitVec.ofBool c
  | .rr => BitVec.ofBool c ++ v.extractLsb' 1 7
  | .sla => v.extractLsb' 0 7 ++ 0b0#1
  | .sra => v.extractLsb' 7 1 ++ v.extractLsb' 1 7
  | .sll => v.extractLsb' 0 7 ++ 0b1#1
  | .srl => 0b0#1 ++ v.extractLsb' 1 7

/-- The bit a rotate or shift moves out: bit 7 to the left, bit 0 to the right. -/
def shiftedOut (k : Rot) (v : Byte) : Bool :=
  match k with
  | .rlc => v.getLsbD 7
  | .rl => v.getLsbD 7
  | .sla => v.getLsbD 7
  | .sll => v.getLsbD 7
  | .rrc => v.getLsbD 0
  | .rr => v.getLsbD 0
  | .sra => v.getLsbD 0
  | .srl => v.getLsbD 0

/-- RES b of an operand. -/
def resInstr (b : BitVec 3) : Operand → Option Instr
  | .reg r => some (.resReg b r)
  | .atHl => some (.resAtHl b)
  | .atXr x d => some (.resAtXr x d b)
  | .half _ _ => none
  | .copy x d r => some (.resAtXrReg x d b r)

/-- SET b of an operand. -/
def setInstr (b : BitVec 3) : Operand → Option Instr
  | .reg r => some (.setReg b r)
  | .atHl => some (.setAtHl b)
  | .atXr x d => some (.setAtXr x d b)
  | .half _ _ => none
  | .copy x d r => some (.setAtXrReg x d b r)

/-- The bytes of an entry of the CB and XYCB tables: fields x and y, and the operand (30_encoding R107,
R115). -/
def Operand.cbBytes (m : Operand) (x : BitVec 2) (y : BitVec 3) : List Byte :=
  match m with
  | .reg r => [0xCB, x ++ y ++ r.code]
  | .atHl => [0xCB, x ++ y ++ 0b110#3]
  | .atXr xr d => [xrCode xr, 0xCB, d, x ++ y ++ 0b110#3]
  | .half _ _ => []
  | .copy xr d r => [xrCode xr, 0xCB, d, x ++ y ++ r.code]

/-- The T-states of the CB rotates, SET and RES (46_rotate_shift R314). -/
def Operand.cbCost : Operand → Nat
  | .reg _ => 8
  | .atHl => 15
  | .atXr _ _ => 23
  | .half _ _ => 0
  | .copy _ _ _ => 23

/-! ### Conditions (10_state R41) -/

/-- Whether the condition of a cc field holds: the upper two bits name Z, C, PV or S, the lowest the value. -/
def ccHolds (cc : BitVec 3) (f : Byte) : Bool :=
  let flag := match (cc.extractLsb' 1 2).toNat with
    | 0 => f.getLsbD 6
    | 1 => f.getLsbD 0
    | 2 => f.getLsbD 2
    | _ => f.getLsbD 7
  flag == cc.getLsbD 0

/-! ### Instructions under ignored prefixes -/

/-- The instruction that ignored index prefixes stand before (30_encoding R112 to R114). -/
def body : Instr → Instr
  | .prefixXrXr _ i => body i
  | .prefixXrED _ i => body i
  | .prefixXrPass _ i => body i
  | i => i

/-! ### The end of a run (60_exceptions R451) -/

/-- Halted with interrupts disabled and no NMI pending. -/
def Quiescent (s : State) : Prop :=
  s.fault = none ∧ s.halted = true ∧ s.iff1 = false ∧ s.nmiPending = false

/-- A faulted state: a run that reaches it has failed. -/
def Faulted (s : State) : Prop := s.fault.isSome = true

/-- The state after a step that begins in `s`, fetches these opcode bytes and raises a fault: the record, the
M1 transactions, no T-states, one draw per fetch, and everything else as at the start of the step
(60_exceptions R441, R442). -/
def State.faultedBy (s : State) (kind : FaultKind) (bytes : List Byte) : State :=
  { s with
    fault := some { kind := kind, pc := s.pc, bytes := bytes }
    bus := bytes.mapIdx fun k v => { kind := .m1, addr := s.pc + BitVec.ofNat 16 k, data := v }
    tstates := none, draws := s.draws + bytes.length }

/-! ### Invariants of the step -/

/-- Memory is in its canonical form; ei_delay is 0 or 1 (10_state R52), and 0 while halted; IFF1 is never set
without IFF2 (10_state R47). -/
def Inv (s : State) : Prop :=
  Memory.wf s.mem = true ∧ s.eiDelay ≤ 1 ∧ (s.halted = true → s.eiDelay = 0) ∧
    (s.iff1 = true → s.iff2 = true)

/-- While halted, PC holds the address of a HALT opcode byte (10_state R51), as the RAM device answers it: of
another device nothing says that it gives the same byte again. -/
def HaltInv (s : State) : Prop := s.params.memDevice = .ram → s.halted = true → s.cell s.pc = 0x76

end Sys2Proof.Machine
end

