-- ==== Sys2Proof/Certificates/Slice0/Obligations.lean ====
section
/-! DEFINITION. The statements for the provers. Each docstring names the rules of spec/ it formalises.

A statement about an instruction speaks of `exec` in the state after the instruction is fetched, for every
such state: `Encoded` says which bytes the step reads and how many of them are opcode fetches,
`FetchReadsEveryByte` what reading them does, and the rest of the statement the data transactions, the
registers, the flags, memory and the T-states. A state written `{ s with ... }` leaves every field that is
not named as it was in `s`.

State holds the parameters of 00_scope R8, so a statement for every state is one for every value of them:
`byteAt` and `codeAt` are the answers of the memory device, whichever it is, and `Wrote` says what the addresses
hold, which is what the RAM device answers (`MemoryReadsBackWrites`). The field `draws` is the model's own: it
counts the free values (log entry 2). -/

open Sys2Proof Sys2Proof.Machine

/-! ### Decoding and encoding -/

/-- A few words written out from the spec's encodings decode to the instructions they stand for
(30_encoding R100 to R115). That the unpopulated entry ED 00 decodes to the row of its prefix is the model's
choice (log entry 15), and so is an ignored index prefix as a row around the instruction after it
(log entry 18). -/
def Obligations.DecodeReadsSpecWords : Prop :=
  decode [0b01111000] = .ok (.ldRegReg .a .b, []) ∧
  decode [0x3E, 0x5A] = .ok (.ldRegN .a 0x5A, []) ∧
  decode [0x31, 0xF0, 0xFF] = .ok (.ldPairNn .sp 0xFFF0, []) ∧
  decode [0x38, 0xFC] = .ok (.jrCond .c 0xFC, []) ∧
  decode [0xCB, 0b00001001] = .ok (.rrcReg .c, []) ∧
  decode [0xED, 0x7B, 0x00, 0x50] = .ok (.ldPairMem .sp 0x5000, []) ∧
  decode [0xED, 0x00] = .ok (.prefixED 0x00, []) ∧
  decode [0xDD, 0x7E, 0xFF] = .ok (.ldRegAtXr .ix .a 0xFF, []) ∧
  decode [0xFD, 0xCB, 0xFF, 0x87] = .ok (.resAtXrReg .iy 0xFF 0 .a, []) ∧
  decode [0xDD, 0x76] = .ok (.prefixXrPass .ix .halt, []) ∧
  decode [0xDD, 0xFD, 0xED, 0x44] = .ok (.prefixXrXr .ix (.prefixXrED .iy (.neg 0)), [])

/-- Decoding the bytes of a well-formed instruction gives it back with the bytes after it, whatever
UNDOC_UNIMPL is (30_encoding R100 to R116). -/
def Obligations.DecodeOfEncodeIsIdentity : Prop :=
  ∀ (u : List (XR × Byte)) (i : Instr) (rest : List Byte), i.wellFormedWith u = true →
    decodeWith u (encode i ++ rest) = .ok (i, rest)

/-- What decoding answers is a well-formed instruction, and its bytes are the ones it was read from: no byte
sequence has two readings (30_encoding R105, R117). -/
def Obligations.EncodeOfDecodeIsIdentity : Prop :=
  ∀ (u : List (XR × Byte)) (bytes : List Byte) (i : Instr) (rest : List Byte),
    decodeWith u bytes = .ok (i, rest) → i.wellFormedWith u = true ∧ encode i ++ rest = bytes

/-- The encoding space: the base, CB and XYCB tables and the index tables have an instruction for every
opcode, and the ED table has one for exactly the listed opcodes; the prefix row stands for the others
(30_encoding R106, R108, R118). -/
def Obligations.EncodingSpaceIsTotal : Prop :=
  (∀ op a b c : Byte, op ≠ 0xDD → op ≠ 0xFD → (decode [op, a, b, c]).isOk = true) ∧
  (∀ (x : XR) (op a b c : Byte), op ≠ 0xDD → op ≠ 0xFD → (decode [xrCode x, op, a, b, c]).isOk = true) ∧
  (∀ op a b : Byte, (∃ rest, decode [0xED, op, a, b] = .ok (.prefixED op, rest)) ↔
    (op < 0x40 ∨ op = 0x77 ∨ op = 0x7F ∨ (0x80 ≤ op ∧ op ≤ 0x9F) ∨ (0xA4 ≤ op ∧ op ≤ 0xA7) ∨
      (0xAC ≤ op ∧ op ≤ 0xAF) ∨ (0xB4 ≤ op ∧ op ≤ 0xB7) ∨ 0xBC ≤ op))

/-- Fetching an instruction reads its bytes in order at consecutive addresses, the opcode fetches as M1
transactions and the others as MR, with what the memory device answers; it leaves PC after the last byte, counts
R mod 128 once per opcode fetch with bit 7 kept, counts one draw per byte, and changes nothing else
(10_state R36, R46; 30_encoding R104). -/
def Obligations.FetchReadsEveryByte : Prop :=
  ∀ (s : State) (i : Instr),
    let t := s.fetched i
    t = { s with
      pc := s.pc + BitVec.ofNat 16 i.size, r := t.r, bus := t.bus, draws := s.draws + i.size } ∧
    t.r.getLsbD 7 = s.r.getLsbD 7 ∧ t.r.toNat % 128 = (s.r.toNat + i.m1) % 128 ∧
    t.bus = s.bus ++ (List.range i.size).map fun k =>
      { kind := if k < i.m1 then .m1 else .mr, addr := s.pc + BitVec.ofNat 16 k,
        data := s.codeAt k (s.pc + BitVec.ofNat 16 k) }

/-! ### The step -/

/-- With no fault, no pending NMI, no acceptable INT and not halted, a step runs the instruction that the
bytes fetched at PC decode to, however many these are and whatever UNDOC_UNIMPL and the memory device are: it
clears the transactions and the cost of the step before, counts ei_delay down, fetches the instruction's bytes
and executes it; where that raises a fault, the registers keep the values from the start of the step
(60_exceptions R420, R427, R441; log entry 14). -/
def Obligations.StepRunsDecodedInstruction : Prop :=
  ∀ (s : State) (n : Nat) (i : Instr) (rest : List Byte),
    s.fault = none → s.nmiPending = false → (s.intLine && s.iff1 && s.eiDelay == 0) = false →
    s.halted = false → decodeWith s.params.undocUnimpl (s.bytesFrom n 0 s.pc) = .ok (i, rest) →
    step s = settleFault s (exec i
      (({ s with bus := [], tstates := none, eiDelay := s.eiDelay - 1 } : State).fetched i))

/-- A pending NMI is taken first, whatever INT, IFF1 and ei_delay are: IFF1 is cleared, IFF2, F, A and every
other register stay, the address after a HALT byte (or PC) is pushed high byte first, R counts once, PC is
0x0066, and 11 T-states are returned (60_exceptions R424, R430, R431). -/
def Obligations.NmiAcceptance : Prop :=
  ∀ s : State, s.fault = none → s.nmiPending = true →
    ∃ t, step s = .next t ∧
      let saved := if s.halted then s.pc + 1 else s.pc
      t = { s with
        nmiPending := false, halted := false, iff1 := false, pc := 0x0066, sp := s.sp - 2, r := s.rInc.r
        mem := t.mem, bus := [mw (s.sp - 1) (hiByte saved), mw (s.sp - 2) (loByte saved)]
        tstates := some 11 } ∧
      Wrote s t [(s.sp - 1, hiByte saved), (s.sp - 2, loByte saved)]

/-- The maskable interrupt is accepted when INT is asserted, IFF1 is set, ei_delay is 0 and no NMI is
pending: IFF1 and IFF2 are cleared, PC is pushed as for the NMI, R counts once; modes 0 and 1 go to 0x0038 in
13 T-states, mode 2 reads the vector at I:bus_byte, low byte first, after the push, in 19
(60_exceptions R432, R433, R434). -/
def Obligations.IntAcceptance : Prop :=
  ∀ s : State, s.fault = none → s.nmiPending = false → s.intLine = true → s.iff1 = true → s.eiDelay = 0 →
    ∃ t, step s = .next t ∧
      let saved := if s.halted then s.pc + 1 else s.pc
      let pushes := [mw (s.sp - 1) (hiByte saved), mw (s.sp - 2) (loByte saved)]
      let v : Word := s.i ++ s.busByte
      t = { s with
        halted := false, iff1 := false, iff2 := false, sp := s.sp - 2, r := s.rInc.r, mem := t.mem
        pc := if s.im = .im2 then t.byteAt (v + 1) ++ t.byteAt v else 0x0038
        bus := if s.im = .im2 then pushes ++ [mr v (t.byteAt v), mr (v + 1) (t.byteAt (v + 1))] else pushes
        draws := if s.im = .im2 then s.draws + 1 else s.draws
        tstates := some (if s.im = .im2 then 19 else 13) } ∧
      Wrote s t [(s.sp - 1, hiByte saved), (s.sp - 2, loByte saved)]

/-- A halted step with nothing to accept changes R only (and counts ei_delay down), performs no transaction
and returns 4 T-states; a quiescent state with ei_delay 0 stays quiescent whatever the INT level is
(60_exceptions R425, R426, R451). -/
def Obligations.HaltedStepCountsROnly : Prop :=
  (∀ s : State, s.fault = none → s.nmiPending = false → (s.intLine && s.iff1 && s.eiDelay == 0) = false →
    s.halted = true →
    step s = .next { s with r := s.rInc.r, eiDelay := s.eiDelay - 1, bus := [], tstates := some 4 }) ∧
  (∀ s : State, Quiescent s → s.eiDelay = 0 → ∃ t, step s = .next t ∧ Quiescent t ∧
    t = { s with r := t.r, bus := t.bus, tstates := t.tstates })

/-- Only EI makes ei_delay positive, and every instruction step counts it down before it runs: after a step
that ran no EI, under whatever ignored prefixes, ei_delay is what it was less one, so that after EI exactly
one more instruction runs before a maskable interrupt can be accepted (60_exceptions R425; 44_general R269;
70_reset_and_hazards R476). -/
def Obligations.OnlyEiDelaysInterrupts : Prop :=
  (∀ (s t : State) (i : Instr), s.fault = none → s.nmiPending = false →
    (s.intLine && s.iff1 && s.eiDelay == 0) = false → s.halted = false → s.instrAt s.pc = .ok i →
    step s = .next t → t.fault = none →
    t.eiDelay = if body i = .ei then 1 else s.eiDelay - 1) ∧
  (∀ (s : State) (level : Bool) (i : Instr), s.fault = none → s.nmiPending = false → s.halted = false →
    s.eiDelay = 1 → s.instrAt s.pc = .ok i →
    step { s with intLine := level } = settleFault { s with intLine := level } (exec i
      (({ s with intLine := level, bus := [], tstates := none, eiDelay := 0 } : State).fetched i)))

/-- No step is defined from a faulted state (60_exceptions R443). -/
def Obligations.FaultedStateHasNoStep : Prop := ∀ s : State, Faulted s → step s = .fault .faulted

/-- An unpopulated ED entry, alone or after a run of index prefixes: the record holds the kind, the address of
the step's first byte and every byte fetched, every register and control field and memory are as at the start
of the step, the M1 reads are performed, and there is no T-state result (30_encoding R105, R108, R113, R114;
60_exceptions R440, R441). That the M1 reads stay in `bus` is log entry 14. The run may be of any length. -/
def Obligations.UnpopulatedEdIsInvalidOpcode : Prop :=
  ∀ (s : State) (run : List XR) (op : Byte), s.fault = none → s.nmiPending = false →
    (s.intLine && s.iff1 && s.eiDelay == 0) = false → s.halted = false →
    s.bytesFrom (run.length + 2) 0 s.pc = run.map xrCode ++ [0xED, op] → edPopulated op = false →
    step s = .next (s.faultedBy .invalidOpcode (run.map xrCode ++ [0xED, op]))

/-- A member of UNDOC_UNIMPL decodes to the row of its prefix, alone or after a run of index prefixes (that it
does is the model's choice, log entry 15); a step that fetches it records UnimplementedUndocumented with the
address of the step's first byte and every byte fetched, the state restored and the M1 reads performed (log
entry 14); with the spec's empty set no bytes decode to such a row, under whatever ignored prefixes
(30_encoding R105, R113, R116; 60_exceptions R442). The run may be of any length. -/
def Obligations.UndocUnimplRaisesItsFault : Prop :=
  (∀ (u : List (XR × Byte)) (run : List XR) (x : XR) (op : Byte) (rest : List Byte), (x, op) ∈ u →
    op ≠ 0xCB → op ≠ 0xDD → op ≠ 0xED → op ≠ 0xFD →
    ∃ i, decodeWith u (run.map xrCode ++ xrCode x :: op :: rest) = .ok (i, rest) ∧
      body i = (match x with | .ix => .prefixDD op | .iy => .prefixFD op) ∧ (run = [] → i = body i)) ∧
  (∀ (s : State) (run : List XR) (x : XR) (op : Byte), s.fault = none → s.nmiPending = false →
    (s.intLine && s.iff1 && s.eiDelay == 0) = false → s.halted = false →
    s.bytesFrom (run.length + 2) 0 s.pc = run.map xrCode ++ [xrCode x, op] →
    (x, op) ∈ s.params.undocUnimpl → op ≠ 0xCB → op ≠ 0xDD → op ≠ 0xED → op ≠ 0xFD →
    step s = .next (s.faultedBy .unimplementedUndocumented (run.map xrCode ++ [xrCode x, op]))) ∧
  (∀ (bytes rest : List Byte) (i : Instr) (op : Byte), decodeWith [] bytes = .ok (i, rest) →
    body i ≠ .prefixDD op ∧ body i ≠ .prefixFD op)

/-- Every step from a state with no fault answers a next state, but where it runs an instruction and the fetches
from PC on answer index prefixes for ever: there, and there only, the run of prefixes has no end, the step does
not return and the model stops by name (30_encoding R105, R113; 60_exceptions R420; the stop is log entry 11). -/
def Obligations.EndlessPrefixRunStops : Prop :=
  ∀ s : State, s.fault = none →
    ((∃ t, step s = .next t) ∨ step s = .fault .endlessPrefixRun) ∧
    (step s = .fault .endlessPrefixRun ↔
      s.nmiPending = false ∧ (s.intLine && s.iff1 && s.eiDelay == 0) = false ∧ s.halted = false ∧
      ∀ k, s.codeAt k (s.pc + BitVec.ofNat 16 k) = 0xDD ∨ s.codeAt k (s.pc + BitVec.ofNat 16 k) = 0xFD)

/-! ### Reset and the host -/

/-- The values that 10_state R58 gives the state after power-on. -/
def Obligations.PowerOnStateValues : Prop :=
  State.reset.iff1 = false ∧ State.reset.iff2 = false ∧ State.reset.halted = false ∧
  State.reset.eiDelay = 0 ∧ State.reset.nmiPending = false ∧ State.reset.fault = none ∧
  State.reset.pc = 0x0000 ∧ State.reset.i = 0x00 ∧ State.reset.r = 0x00 ∧ State.reset.im = .im0

/-- Reset sets exactly the ten fields that 70_reset_and_hazards R470 lists, and the general registers, their
shadows, IX, IY, SP and memory keep their values; power-on is Reset with POWER_ON_REGS in the registers
(R472), and `State.launch` is the machine after it with any parameters (00_scope R8). -/
def Obligations.ResetAndPowerOn : Prop :=
  (∀ s : State, hostAct .reset s = .next { s with
    iff1 := false, iff2 := false, halted := false, eiDelay := 0, nmiPending := false, fault := none
    pc := 0x0000, i := 0x00, r := 0x00, im := .im0 }) ∧
  (∀ (s t : State) (p : PowerOnRegs), hostAct .reset s = .next t →
    hostAct (.powerOn p) s = .next { t with
      a := p.a, f := p.f, b := p.b, c := p.c, d := p.d, e := p.e, h := p.h, l := p.l
      a' := p.a', f' := p.f', b' := p.b', c' := p.c', d' := p.d', e' := p.e', h' := p.h', l' := p.l'
      ix := p.ix, iy := p.iy, sp := p.sp }) ∧
  (∀ (p : Params) (regs : PowerOnRegs),
    hostAct (.powerOn regs) { State.reset with params := p } = .next (State.launch p regs) ∧
      (State.launch p regs).params = p)

/-- The accessors refuse exactly IM = 3 and ei_delay > 1, an asserted NMI is latched once, no host action but
the one on memory touches memory, and none changes the parameters (60_exceptions R423, R450; 10_state R48). -/
def Obligations.HostWritesAreLegal : Prop :=
  (∀ (act : HostAction) (s : State), hostAct act s = .refused .illegalHostWrite ↔
    (act = .writeIm 3 ∨ ∃ v, act = .writeEiDelay v ∧ 1 < v)) ∧
  (∀ s t : State, hostAct .assertNmi s = .next t →
    t = { s with nmiPending := true } ∧ hostAct .assertNmi t = .next t) ∧
  (∀ (act : HostAction) (s t : State), hostAct act s = .next t →
    ((∀ a v, act ≠ .loadByte a v) → t.mem = s.mem) ∧ t.params = s.params)

/-! ### Memory, the stack, R -/

/-- With the RAM device, a data read and a fetch answer what the address holds, a byte written is the byte read
at that address and every other address reads as before; a word lies low byte first and wraps at the top of the
address space (20_memory R74, R77, R78, R79). Under whatever device, a write changes what that address holds and
no other. -/
def Obligations.MemoryReadsBackWrites : Prop :=
  (∀ (s : State) (a b : Word) (v : Byte), (s.writeAt a v).cell b = if b = a then v else s.cell b) ∧
  (∀ s : State, s.params.memDevice = .ram →
    (∀ a, s.byteAt a = s.cell a ∧ ∀ k, s.codeAt k a = s.cell a) ∧
    (∀ (a b : Word) (v : Byte), (s.writeAt a v).byteAt b = if b = a then v else s.byteAt b) ∧
    (∀ a w : Word, (s.writeWordAt a w).wordAt a = w ∧ (s.writeWordAt a w).byteAt a = w.extractLsb' 0 8 ∧
      (s.writeWordAt a w).byteAt (a + 1) = w.extractLsb' 8 8) ∧
    (∀ (w : Word) (v : Byte), (s.writeWordAt 0xFFFF w).byteAt 0x0000 = w.extractLsb' 8 8 ∧
      (s.writeAt 0x0000 v).wordAt 0xFFFF = v ++ s.byteAt 0xFFFF))

/-- Push writes the high byte at SP - 1 and then the low byte at SP - 2 and leaves SP there; Pop reads the low
byte at SP and the high byte at SP + 1; with the RAM device, a Pop after a Push gives the value back with SP as
it was (20_memory R80, R81). -/
def Obligations.PushThenPop : Prop :=
  (∀ (s : State) (v : Word),
    s.push v = { s with
      sp := s.sp - 2, mem := (s.push v).mem
      bus := s.bus ++ [mw (s.sp - 1) (hiByte v), mw (s.sp - 2) (loByte v)] } ∧
    Wrote s (s.push v) [(s.sp - 1, hiByte v), (s.sp - 2, loByte v)]) ∧
  (∀ s : State, s.pop = (s.byteAt (s.sp + 1) ++ s.byteAt s.sp,
    { s with
      sp := s.sp + 2
      bus := s.bus ++ [mr s.sp (s.byteAt s.sp), mr (s.sp + 1) (s.byteAt (s.sp + 1))] })) ∧
  (∀ (s : State) (v : Word), s.params.memDevice = .ram → (s.push v).pop.1 = v) ∧
  (∀ (s : State) (v : Word), (s.push v).pop.2.sp = s.sp)

/-- R_inc counts the low seven bits mod 128, keeps bit 7 and changes nothing else (10_state R46). -/
def Obligations.RefreshCounterWraps : Prop :=
  ∀ s : State, s.rInc = { s with r := s.rInc.r } ∧ s.rInc.r.getLsbD 7 = s.r.getLsbD 7 ∧
    s.rInc.r.toNat % 128 = (s.r.toNat % 128 + 1) % 128

/-! ### Invariants and whole-machine rules -/

/-- Every step keeps the invariant: memory stays canonical, ei_delay stays 0 or 1 and 0 while halted, IFF1 is
never set without IFF2 (10_state R47, R52); and no step changes the parameters (00_scope R8). -/
def Obligations.StepKeepsInvariant : Prop :=
  ∀ s t : State, step s = .next t → (Inv s → Inv t) ∧ t.params = s.params

/-- Every step keeps this: with the RAM device, while halted, PC is the address of a HALT opcode byte
(10_state R51). -/
def Obligations.StepKeepsHaltAddress : Prop := ∀ s t : State, HaltInv s → step s = .next t → HaltInv t

/-- Both invariants hold in the state after power-on, for all parameters and POWER_ON_REGS. -/
def Obligations.ResetMeetsInvariants : Prop :=
  (Inv State.reset ∧ HaltInv State.reset) ∧
  ∀ (p : Params) (regs : PowerOnRegs), Inv (State.launch p regs) ∧ HaltInv (State.launch p regs)

/-- The end of a run (60_exceptions R451). It is a faulted or a quiescent state, and a state that is neither, a
halted one with IFF1 set among them, is none; moves without a further NMI do not move the end. From a quiescent
state, every run of steps, whatever the INT level and the bus byte become, goes on, stays quiescent and leaves
the observation as it is; a faulted state has no step and no observation. What the observation leaves out of
the model's own fields is the model's choice (log entry 21). -/
def Obligations.EndOfRun : Prop :=
  (∀ (moves : List Move) (s t : State), runEnd moves s = some t → Faulted t ∨ Quiescent t) ∧
  (∀ (m : Move) (rest : List Move) (s t : State), ¬ Faulted s → ¬ Quiescent s → move m s = .next t →
    runEnd (m :: rest) s = runEnd rest t) ∧
  (∀ s : State, s.fault = none → s.iff1 = true → ¬ Faulted s ∧ ¬ Quiescent s ∧ s.ending = none) ∧
  (∀ (moves more : List Move) (s t : State), runEnd moves s = some t → noNmi more = true →
    runEnd (moves ++ more) s = some t) ∧
  (∀ (moves : List Move) (s : State), Quiescent s → s.eiDelay = 0 →
    (∀ m ∈ moves, m = .step ∨ (∃ v, m = .host (.setInt v)) ∨ ∃ v, m = .host (.setBusByte v)) →
    runEnd moves s = some s ∧
      ∃ t, runMoves moves s = some t ∧ Quiescent t ∧ s.observation.isSome ∧ t.observation = s.observation) ∧
  (∀ (moves : List Move) (s : State), Faulted s →
    runEnd moves s = some s ∧ runMoves (.step :: moves) s = none ∧ s.observation = none)

/-! ### The views of the registers -/

/-- Each view of the registers reads and writes exactly its fields, high half first: the 8-bit registers, the
pairs by name and by the rp, rp2 and pp fields, the index registers and their bytes (10_state R33, R34;
30_encoding R102). -/
def Obligations.RegisterViews : Prop :=
  ∀ (s : State) (v : Byte) (w : Word),
    let hi : Byte := w.extractLsb' 8 8
    let lo : Byte := w.extractLsb' 0 8
    (s.reg8 .b = s.b ∧ s.reg8 .c = s.c ∧ s.reg8 .d = s.d ∧ s.reg8 .e = s.e ∧ s.reg8 .h = s.h ∧ s.reg8 .l = s.l ∧
      s.reg8 .a = s.a) ∧
    (s.setReg8 .b v = { s with b := v } ∧ s.setReg8 .c v = { s with c := v } ∧
      s.setReg8 .d v = { s with d := v } ∧ s.setReg8 .e v = { s with e := v } ∧
      s.setReg8 .h v = { s with h := v } ∧ s.setReg8 .l v = { s with l := v } ∧
      s.setReg8 .a v = { s with a := v }) ∧
    (s.bc = s.b ++ s.c ∧ s.de = s.d ++ s.e ∧ s.hl = s.h ++ s.l ∧ s.af = s.a ++ s.f) ∧
    (s.pair .bc = s.b ++ s.c ∧ s.pair .de = s.d ++ s.e ∧ s.pair .hl = s.h ++ s.l ∧ s.pair .sp = s.sp) ∧
    (s.setPair .bc w = { s with b := hi, c := lo } ∧ s.setPair .de w = { s with d := hi, e := lo } ∧
      s.setPair .hl w = { s with h := hi, l := lo } ∧ s.setPair .sp w = { s with sp := w }) ∧
    (s.stackPair .bc = s.b ++ s.c ∧ s.stackPair .de = s.d ++ s.e ∧ s.stackPair .hl = s.h ++ s.l ∧
      s.stackPair .af = s.a ++ s.f) ∧
    (s.setStackPair .bc w = { s with b := hi, c := lo } ∧ s.setStackPair .de w = { s with d := hi, e := lo } ∧
      s.setStackPair .hl w = { s with h := hi, l := lo } ∧ s.setStackPair .af w = { s with a := hi, f := lo }) ∧
    (s.xr .ix = s.ix ∧ s.xr .iy = s.iy ∧ s.setXr .ix w = { s with ix := w } ∧
      s.setXr .iy w = { s with iy := w }) ∧
    (∀ x : XR, s.idxPair x .bc = s.b ++ s.c ∧ s.idxPair x .de = s.d ++ s.e ∧ s.idxPair x .xr = s.xr x ∧
      s.idxPair x .sp = s.sp) ∧
    (∀ x : XR, s.xrHalf x .hi = (s.xr x).extractLsb' 8 8 ∧ s.xrHalf x .lo = (s.xr x).extractLsb' 0 8 ∧
      s.setXrHalf x .hi v = s.setXr x (v ++ (s.xr x).extractLsb' 0 8) ∧
      s.setXrHalf x .lo v = s.setXr x ((s.xr x).extractLsb' 8 8 ++ v))

/-- Every well-formed instruction, in every state, answers a next state: no instruction is privileged, none
refuses its operands, no access fails (60_exceptions R444, R447; that there is one privilege mode is the spec's
decision D22). -/
def Obligations.EveryInstructionCompletes : Prop :=
  ∀ (i : Instr) (s : State), i.wellFormedWith s.params.undocUnimpl = true → ∃ t, exec i s = .next t

/-- No instruction but EX AF,AF' touches A' and F', and none but EXX touches the other shadow registers
(10_state R31). -/
def Obligations.ShadowRegistersOnlyExchanged : Prop :=
  ∀ (i : Instr) (s t : State), i.wellFormedWith s.params.undocUnimpl = true → exec i s = .next t →
    (body i ≠ .exAfAf → t.a' = s.a' ∧ t.f' = s.f') ∧
    (body i ≠ .exx →
      t.b' = s.b' ∧ t.c' = s.c' ∧ t.d' = s.d' ∧ t.e' = s.e' ∧ t.h' = s.h' ∧ t.l' = s.l')

/-- LD R,A writes all eight bits of R from A and is the only instruction that changes R beyond the count of
the opcode fetches, which keeps R7, so the only one that writes R7; LD I,A is the only one that changes I
(10_state R42, R44, R45; 40_load8 R154, R155). -/
def Obligations.OnlyLoadsWriteIAndR : Prop :=
  (∀ (i : Instr) (s t : State), i.wellFormedWith s.params.undocUnimpl = true → exec i s = .next t →
    (body i = .ldRA → t.r = s.a) ∧ (body i ≠ .ldRA → t.r = s.r) ∧
    (body i = .ldIA → t.i = s.a) ∧ (body i ≠ .ldIA → t.i = s.i)) ∧
  (∀ (i : Instr) (s : State), (s.fetched i).r.getLsbD 7 = s.r.getLsbD 7)

/-- The writers of the interrupt state: IFF2 by DI and EI alone, IFF1 by these and RETN and RETI, which copy
IFF2 into it, IM by the IM instructions, and no instruction writes nmi_pending or the INT level
(10_state R47, R48, R53). -/
def Obligations.InterruptStateWriters : Prop :=
  ∀ (i : Instr) (s t : State), i.wellFormedWith s.params.undocUnimpl = true → exec i s = .next t →
    (body i ≠ .di → body i ≠ .ei → t.iff2 = s.iff2) ∧
    (body i ≠ .di → body i ≠ .ei → body i ≠ .reti → (∀ y, body i ≠ .retn y) → t.iff1 = s.iff1) ∧
    (body i = .reti ∨ (∃ y, body i = .retn y) → t.iff1 = s.iff2) ∧
    ((∀ y, body i ≠ .im0 y) → (∀ y, body i ≠ .im1 y) → (∀ y, body i ≠ .im2 y) → t.im = s.im) ∧
    t.nmiPending = s.nmiPending ∧ t.intLine = s.intLine

/-! ### 8-bit loads -/

/-- LD r,r', LD r,n, the forms with XRH and XRL for H and L, and LD XRH,n: the destination takes the value,
nothing else changes, no data transaction (40_load8 R140, R141, R156, R157). -/
def Obligations.LoadByteRegister : Prop :=
  (∀ (r r' : Reg8) (s : State),
    Encoded (.ldRegReg r r') [0b01#2 ++ r.code ++ r'.code] 1 ∧
    exec (.ldRegReg r r') s = .next { s.setReg8 r (s.reg8 r') with tstates := some 4 }) ∧
  (∀ (r : Reg8) (n : Byte) (s : State),
    Encoded (.ldRegN r n) [0b00#2 ++ r.code ++ 0b110#3, n] 1 ∧
    exec (.ldRegN r n) s = .next { s.setReg8 r n with tstates := some 7 }) ∧
  (∀ (x : XR) (r r' : Reg8) (s : State),
    Encoded (.ldRegRegXr x r r') [xrCode x, 0b01#2 ++ r.code ++ r'.code] 2 ∧
    (let v : Byte := match r' with
      | .h => (s.xr x).extractLsb' 8 8
      | .l => (s.xr x).extractLsb' 0 8
      | _ => s.reg8 r'
    exec (.ldRegRegXr x r r') s = .next { (match r with
      | .h => s.setXr x (v ++ (s.xr x).extractLsb' 0 8)
      | .l => s.setXr x ((s.xr x).extractLsb' 8 8 ++ v)
      | _ => s.setReg8 r v : State) with tstates := some 8 })) ∧
  (∀ (x : XR) (p : Half) (n : Byte) (s : State),
    Encoded (.ldXrHalfN x p n) [xrCode x, 0b0010#4 ++ halfCode p ++ 0b110#3, n] 2 ∧
    exec (.ldXrHalfN x p n) s = .next { (match p with
      | .hi => s.setXr x (n ++ (s.xr x).extractLsb' 0 8)
      | .lo => s.setXr x ((s.xr x).extractLsb' 8 8 ++ n) : State) with tstates := some 11 })

/-- LD r,(HL), LD r,(XR+d) with r[4] and r[5] being H and L, LD A,(BC), LD A,(DE) and LD A,(nn): one read,
the destination takes the byte, nothing else changes (40_load8 R142, R145, R148, R150). -/
def Obligations.LoadByteFromMemory : Prop :=
  (∀ (r : Reg8) (s : State),
    Encoded (.ldRegAtHl r) [0b01#2 ++ r.code ++ 0b110#3] 1 ∧
    exec (.ldRegAtHl r) s = .next { s.setReg8 r (s.byteAt s.hl) with
      bus := s.bus ++ [mr s.hl (s.byteAt s.hl)], tstates := some 7 }) ∧
  (∀ (x : XR) (r : Reg8) (d : Byte) (s : State),
    Encoded (.ldRegAtXr x r d) [xrCode x, 0b01#2 ++ r.code ++ 0b110#3, d] 2 ∧
    (let ea := s.xr x + d.signExtend 16
    exec (.ldRegAtXr x r d) s = .next { s.setReg8 r (s.byteAt ea) with
      bus := s.bus ++ [mr ea (s.byteAt ea)], tstates := some 19 })) ∧
  (∀ (rr : PtrPair) (s : State),
    Encoded (.ldAPtr rr) [0b000#3 ++ ptrPairCode rr ++ 0b1010#4] 1 ∧
    (let p := match rr with | .bc => s.bc | .de => s.de
    exec (.ldAPtr rr) s = .next { s with
      a := s.byteAt p, bus := s.bus ++ [mr p (s.byteAt p)], tstates := some 7 })) ∧
  (∀ (nn : Word) (s : State),
    Encoded (.ldAMem nn) [0x3A, nn.extractLsb' 0 8, nn.extractLsb' 8 8] 1 ∧
    exec (.ldAMem nn) s = .next { s with
      a := s.byteAt nn, bus := s.bus ++ [mr nn (s.byteAt nn)], tstates := some 13 })

/-- LD (HL),r, LD (HL),n, LD (XR+d),r, LD (XR+d),n, LD (BC),A, LD (DE),A and LD (nn),A: one write of the source
at the computed address; every other byte of memory and every register and flag stay (40_load8 R143, R144,
R146, R147, R149, R151). -/
def Obligations.StoreByte : Prop :=
  let stores (i : Instr) (s : State) (a : Word) (v : Byte) (cost : Nat) : Prop :=
    ∃ t, exec i s = .next t ∧
      t = { s with mem := t.mem, bus := s.bus ++ [mw a v], tstates := some cost } ∧ Wrote s t [(a, v)]
  (∀ (r : Reg8) (s : State), Encoded (.ldAtHlReg r) [0b01110#5 ++ r.code] 1 ∧
    stores (.ldAtHlReg r) s s.hl (s.reg8 r) 7) ∧
  (∀ (n : Byte) (s : State), Encoded (.ldAtHlN n) [0x36, n] 1 ∧ stores (.ldAtHlN n) s s.hl n 10) ∧
  (∀ (x : XR) (d : Byte) (r : Reg8) (s : State),
    Encoded (.ldAtXrReg x d r) [xrCode x, 0b01110#5 ++ r.code, d] 2 ∧
    stores (.ldAtXrReg x d r) s (s.xr x + d.signExtend 16) (s.reg8 r) 19) ∧
  (∀ (x : XR) (d n : Byte) (s : State), Encoded (.ldAtXrN x d n) [xrCode x, 0x36, d, n] 2 ∧
    stores (.ldAtXrN x d n) s (s.xr x + d.signExtend 16) n 19) ∧
  (∀ (rr : PtrPair) (s : State), Encoded (.ldPtrA rr) [0b000#3 ++ ptrPairCode rr ++ 0b0010#4] 1 ∧
    stores (.ldPtrA rr) s (match rr with | .bc => s.bc | .de => s.de) s.a 7) ∧
  (∀ (nn : Word) (s : State),
    Encoded (.ldMemA nn) [0x32, nn.extractLsb' 0 8, nn.extractLsb' 8 8] 1 ∧
    stores (.ldMemA nn) s nn s.a 13)

/-- LD A,I and LD A,R write A and F (S, Z, Y, X from A, H and N clear, PV = IFF2, C kept); LD I,A and LD R,A
write their register, all eight bits, and no flag (40_load8 R152 to R155). -/
def Obligations.LoadInterruptAndRefresh : Prop :=
  (∀ s : State, Encoded .ldAI [0xED, 0x57] 2 ∧ ∃ f, exec .ldAI s = .next { s with
    a := s.i, f := f, tstates := some 9 } ∧
    FlagsAre f (s.i.getLsbD 7) (s.i == 0) (s.i.getLsbD 5) false (s.i.getLsbD 3) s.iff2 false (s.f.getLsbD 0)) ∧
  (∀ s : State, Encoded .ldAR [0xED, 0x5F] 2 ∧ ∃ f, exec .ldAR s = .next { s with
    a := s.r, f := f, tstates := some 9 } ∧
    FlagsAre f (s.r.getLsbD 7) (s.r == 0) (s.r.getLsbD 5) false (s.r.getLsbD 3) s.iff2 false (s.f.getLsbD 0)) ∧
  (∀ s : State, Encoded .ldIA [0xED, 0x47] 2 ∧
    exec .ldIA s = .next { s with i := s.a, tstates := some 9 }) ∧
  (∀ s : State, Encoded .ldRA [0xED, 0x4F] 2 ∧
    exec .ldRA s = .next { s with r := s.a, tstates := some 9 })

/-! ### 16-bit loads and the stack -/

/-- LD dd,nn, LD XR,nn, LD SP,HL and LD SP,XR: the pair takes the value, no flag changes
(41_load16 R170, R171, R178, R179). -/
def Obligations.LoadPairRegister : Prop :=
  (∀ (rr : Pair) (nn : Word) (s : State),
    Encoded (.ldPairNn rr nn) [0b00#2 ++ pairCode rr ++ 0b0001#4, nn.extractLsb' 0 8, nn.extractLsb' 8 8] 1 ∧
    exec (.ldPairNn rr nn) s = .next { s.setPair rr nn with tstates := some 10 }) ∧
  (∀ (x : XR) (nn : Word) (s : State),
    Encoded (.ldXrNn x nn) [xrCode x, 0x21, nn.extractLsb' 0 8, nn.extractLsb' 8 8] 2 ∧
    exec (.ldXrNn x nn) s = .next { s.setXr x nn with tstates := some 14 }) ∧
  (∀ s : State, Encoded .ldSpHl [0xF9] 1 ∧
    exec .ldSpHl s = .next { s with sp := s.h ++ s.l, tstates := some 6 }) ∧
  (∀ (x : XR) (s : State), Encoded (.ldSpXr x) [xrCode x, 0xF9] 2 ∧
    exec (.ldSpXr x) s = .next { s with sp := s.xr x, tstates := some 10 })

/-- LD HL,(nn), LD dd,(nn) and LD XR,(nn) read the low byte at nn and then the high byte at nn + 1;
LD (nn),HL, LD (nn),dd and LD (nn),XR write them so; no flag changes (41_load16 R172 to R177). -/
def Obligations.LoadPairMemory : Prop :=
  let word (s : State) (nn : Word) : Word := s.byteAt (nn + 1) ++ s.byteAt nn
  let read (s : State) (nn : Word) : List BusEvent :=
    s.bus ++ [mr nn (s.byteAt nn), mr (nn + 1) (s.byteAt (nn + 1))]
  let stores (i : Instr) (s : State) (nn v : Word) (cost : Nat) : Prop :=
    ∃ t, exec i s = .next t ∧
      t = { s with
        mem := t.mem, bus := s.bus ++ [mw nn (v.extractLsb' 0 8), mw (nn + 1) (v.extractLsb' 8 8)]
        tstates := some cost } ∧
      Wrote s t [(nn, v.extractLsb' 0 8), (nn + 1, v.extractLsb' 8 8)]
  (∀ (nn : Word) (s : State),
    Encoded (.ldHlMem nn) [0x2A, nn.extractLsb' 0 8, nn.extractLsb' 8 8] 1 ∧
    exec (.ldHlMem nn) s = .next { s with
      l := s.byteAt nn, h := s.byteAt (nn + 1), bus := read s nn, tstates := some 16 }) ∧
  (∀ (rr : Pair) (nn : Word) (s : State),
    Encoded (.ldPairMem rr nn)
      [0xED, 0b01#2 ++ pairCode rr ++ 0b1011#4, nn.extractLsb' 0 8, nn.extractLsb' 8 8] 2 ∧
    exec (.ldPairMem rr nn) s = .next { s.setPair rr (word s nn) with
      bus := read s nn, tstates := some 20 }) ∧
  (∀ (x : XR) (nn : Word) (s : State),
    Encoded (.ldXrMem x nn) [xrCode x, 0x2A, nn.extractLsb' 0 8, nn.extractLsb' 8 8] 2 ∧
    exec (.ldXrMem x nn) s = .next { s.setXr x (word s nn) with bus := read s nn, tstates := some 20 }) ∧
  (∀ (nn : Word) (s : State),
    Encoded (.ldMemHl nn) [0x22, nn.extractLsb' 0 8, nn.extractLsb' 8 8] 1 ∧
    stores (.ldMemHl nn) s nn (s.h ++ s.l) 16) ∧
  (∀ (rr : Pair) (nn : Word) (s : State),
    Encoded (.ldMemPair nn rr)
      [0xED, 0b01#2 ++ pairCode rr ++ 0b0011#4, nn.extractLsb' 0 8, nn.extractLsb' 8 8] 2 ∧
    stores (.ldMemPair nn rr) s nn (s.pair rr) 20) ∧
  (∀ (x : XR) (nn : Word) (s : State),
    Encoded (.ldMemXr x nn) [xrCode x, 0x22, nn.extractLsb' 0 8, nn.extractLsb' 8 8] 2 ∧
    stores (.ldMemXr x nn) s nn (s.xr x) 20)

/-- PUSH qq and PUSH XR write the high byte at SP - 1 and then the low byte at SP - 2; POP qq and POP XR read
the low byte at SP and then the high byte at SP + 1; only POP AF writes F, all eight bits
(41_load16 R180 to R183). -/
def Obligations.PushAndPop : Prop :=
  let pushes (i : Instr) (s : State) (v : Word) (cost : Nat) : Prop :=
    ∃ t, exec i s = .next t ∧
      t = { s with
        sp := s.sp - 2, mem := t.mem
        bus := s.bus ++ [mw (s.sp - 1) (v.extractLsb' 8 8), mw (s.sp - 2) (v.extractLsb' 0 8)]
        tstates := some cost } ∧
      Wrote s t [(s.sp - 1, v.extractLsb' 8 8), (s.sp - 2, v.extractLsb' 0 8)]
  let read (s : State) : List BusEvent :=
    s.bus ++ [mr s.sp (s.byteAt s.sp), mr (s.sp + 1) (s.byteAt (s.sp + 1))]
  (∀ (qq : StackPair) (s : State), Encoded (.pushPair qq) [0b11#2 ++ stackPairCode qq ++ 0b0101#4] 1 ∧
    pushes (.pushPair qq) s (s.stackPair qq) 11) ∧
  (∀ (x : XR) (s : State), Encoded (.pushXr x) [xrCode x, 0xE5] 2 ∧ pushes (.pushXr x) s (s.xr x) 15) ∧
  (∀ (qq : StackPair) (s : State), Encoded (.popPair qq) [0b11#2 ++ stackPairCode qq ++ 0b0001#4] 1 ∧
    exec (.popPair qq) s =
      (let lo := s.byteAt s.sp
      let hi := s.byteAt (s.sp + 1)
      let t := { s with sp := s.sp + 2, bus := read s, tstates := some 10 }
      .next (match qq with
        | .bc => { t with b := hi, c := lo }
        | .de => { t with d := hi, e := lo }
        | .hl => { t with h := hi, l := lo }
        | .af => { t with a := hi, f := lo }))) ∧
  (∀ (x : XR) (s : State), Encoded (.popXr x) [xrCode x, 0xE1] 2 ∧
    exec (.popXr x) s = .next ({ s with sp := s.sp + 2, bus := read s, tstates := some 14 }.setXr x
      (s.byteAt (s.sp + 1) ++ s.byteAt s.sp)))

/-! ### Exchanges and block instructions -/

/-- EX DE,HL, which an index prefix leaves as it is but for 4 T-states more, EX AF,AF' with all eight bits of
F, and EXX (42_exchange_block R200, R201, R202). -/
def Obligations.ExchangeRegisters : Prop :=
  (∀ s : State, Encoded .exDeHl [0xEB] 1 ∧
    exec .exDeHl s = .next { s with d := s.h, e := s.l, h := s.d, l := s.e, tstates := some 4 }) ∧
  (∀ (x : XR) (s : State), Encoded (.prefixXrPass x .exDeHl) [xrCode x, 0xEB] 2 ∧
    exec (.prefixXrPass x .exDeHl) s =
      .next { s with d := s.h, e := s.l, h := s.d, l := s.e, tstates := some 8 }) ∧
  (∀ s : State, Encoded .exAfAf [0x08] 1 ∧
    exec .exAfAf s = .next { s with a := s.a', f := s.f', a' := s.a, f' := s.f, tstates := some 4 }) ∧
  (∀ s : State, Encoded .exx [0xD9] 1 ∧
    exec .exx s = .next { s with
      b := s.b', c := s.c', d := s.d', e := s.e', h := s.h', l := s.l'
      b' := s.b, c' := s.c, d' := s.d, e' := s.e, h' := s.h, l' := s.l, tstates := some 4 })

/-- EX (SP),HL and EX (SP),XR: both bytes are read, the high byte is written at SP + 1 and then the low byte
at SP, SP and F stay (42_exchange_block R203, R204). -/
def Obligations.ExchangeStackTop : Prop :=
  let moved (s t : State) (v : Word) : Prop :=
    t.bus = s.bus ++ [mr s.sp (s.byteAt s.sp), mr (s.sp + 1) (s.byteAt (s.sp + 1)),
      mw (s.sp + 1) (v.extractLsb' 8 8), mw s.sp (v.extractLsb' 0 8)] ∧
    Wrote s t [(s.sp + 1, v.extractLsb' 8 8), (s.sp, v.extractLsb' 0 8)]
  (∀ s : State, Encoded .exSpHl [0xE3] 1 ∧ ∃ t, exec .exSpHl s = .next t ∧
    t = { s with
      h := s.byteAt (s.sp + 1), l := s.byteAt s.sp, mem := t.mem, bus := t.bus, tstates := some 19 } ∧
    moved s t (s.h ++ s.l)) ∧
  (∀ (x : XR) (s : State), Encoded (.exSpXr x) [xrCode x, 0xE3] 2 ∧ ∃ t, exec (.exSpXr x) s = .next t ∧
    t = { s.setXr x (s.byteAt (s.sp + 1) ++ s.byteAt s.sp) with
      mem := t.mem, bus := t.bus, tstates := some 23 } ∧
    moved s t (s.xr x))

/-- LDI, LDD, LDIR and LDDR: one byte moves from HL to DE, HL and DE step by 1, BC counts down; PV is
BC ≠ 0, H and N are clear, Y and X are bits 1 and 3 of A + v, S, Z and C stay; LDIR and LDDR rewind PC by 2
and take 21 T-states exactly while BC ≠ 0. In a repeating iteration under `chip_2018` Y and X are bits 13 and 11
of the rewound PC (42_exchange_block R205 to R208, R213). -/
def Obligations.BlockLoad : Prop :=
  let loads (i : Instr) (s : State) (step : Word) (repeating : Bool) : Prop :=
    ∃ t, exec i s = .next t ∧
      let v := s.byteAt (s.h ++ s.l)
      let bc := s.bc - 1
      let again := repeating && bc != 0
      let chip := again && s.params.repeatFlags == .chip2018
      let n := s.a + v
      t = { s with
        h := (s.hl + step).extractLsb' 8 8, l := (s.hl + step).extractLsb' 0 8
        d := (s.de + step).extractLsb' 8 8, e := (s.de + step).extractLsb' 0 8
        b := bc.extractLsb' 8 8, c := bc.extractLsb' 0 8
        f := t.f, pc := if again then s.pc - 2 else s.pc, draws := t.draws
        mem := t.mem, bus := s.bus ++ [mr s.hl v, mw s.de v], tstates := some (if again then 21 else 16) } ∧
      FlagsAre t.f (s.f.getLsbD 7) (s.f.getLsbD 6) (if chip then (s.pc - 2).getLsbD 13 else n.getLsbD 1) false
        (if chip then (s.pc - 2).getLsbD 11 else n.getLsbD 3) (bc != 0) false (s.f.getLsbD 0) ∧
      Wrote s t [(s.de, v)]
  (∀ s : State, Encoded .ldi [0xED, 0xA0] 2 ∧ loads .ldi s 1 false) ∧
  (∀ s : State, Encoded .ldd [0xED, 0xA8] 2 ∧ loads .ldd s (-1) false) ∧
  (∀ s : State, Encoded .ldir [0xED, 0xB0] 2 ∧ loads .ldir s 1 true) ∧
  (∀ s : State, Encoded .lddr [0xED, 0xB8] 2 ∧ loads .lddr s (-1) true)

/-- CPI, CPD, CPIR and CPDR: A is compared with the byte at HL, HL steps by 1, BC counts down; S and Z from
A - v, H from the low nibbles, PV is BC ≠ 0, N is set, Y and X are bits 1 and 3 of A - v - H, C stays; CPIR
and CPDR repeat exactly while BC ≠ 0 and the byte is not found. Y and X of a repeating iteration as in
`BlockLoad` (42_exchange_block R209 to R213). -/
def Obligations.BlockCompare : Prop :=
  let compares (i : Instr) (s : State) (step : Word) (repeating : Bool) : Prop :=
    ∃ f draws, let v := s.byteAt (s.h ++ s.l)
      let bc := s.bc - 1
      let r := s.a - v
      let borrow := decide (s.a.toNat % 16 < v.toNat % 16)
      let n := if borrow then r - 1 else r
      let again := repeating && bc != 0 && r != 0
      let chip := again && s.params.repeatFlags == .chip2018
      exec i s = .next { s with
        h := (s.hl + step).extractLsb' 8 8, l := (s.hl + step).extractLsb' 0 8
        b := bc.extractLsb' 8 8, c := bc.extractLsb' 0 8
        f := f, pc := if again then s.pc - 2 else s.pc, draws := draws
        bus := s.bus ++ [mr s.hl v], tstates := some (if again then 21 else 16) } ∧
      FlagsAre f (r.getLsbD 7) (r == 0) (if chip then (s.pc - 2).getLsbD 13 else n.getLsbD 1) borrow
        (if chip then (s.pc - 2).getLsbD 11 else n.getLsbD 3) (bc != 0) true (s.f.getLsbD 0)
  (∀ s : State, Encoded .cpi [0xED, 0xA1] 2 ∧ compares .cpi s 1 false) ∧
  (∀ s : State, Encoded .cpd [0xED, 0xA9] 2 ∧ compares .cpd s (-1) false) ∧
  (∀ s : State, Encoded .cpir [0xED, 0xB1] 2 ∧ compares .cpir s 1 true) ∧
  (∀ s : State, Encoded .cpdr [0xED, 0xB9] 2 ∧ compares .cpdr s (-1) true)

/-! ### 8-bit arithmetic -/

/-- ADD A,s and ADC A,s in every operand form: A takes the sum, the flags are those of ADD8, nothing else
changes (43_alu8 R230, R232, R233, R234). -/
def Obligations.AddToAccumulator : Prop :=
  ∀ (withCarry : Bool) (src : AluSrc) (s : State),
    let op : AluOp := if withCarry then .adc else .add
    let v := src.value s
    let c := (withCarry && s.f.getLsbD 0).toNat
    let sum := s.a.toNat + v.toNat + c
    let res := BitVec.ofNat 8 sum
    Encoded (aluInstr op src) (src.bytes op) src.m1 ∧
    ∃ f, exec (aluInstr op src) s = .next { s with
        a := res, f := f, bus := s.bus ++ src.reads s, tstates := some src.cost } ∧
      FlagsAre f (res.getLsbD 7) (res == 0) (res.getLsbD 5)
        (decide (15 < s.a.toNat % 16 + v.toNat % 16 + c)) (res.getLsbD 3)
        (s.a.getLsbD 7 == v.getLsbD 7 && res.getLsbD 7 != s.a.getLsbD 7) false (decide (255 < sum))

/-- SUB s, SBC A,s and CP s in every operand form: SUB and SBC write A with the difference, CP does not; the
flags are those of SUB8, with Y and X of CP from the operand (43_alu8 R231, R232, R235, R236, R240). -/
def Obligations.SubtractFromAccumulator : Prop :=
  ∀ (op : AluOp) (src : AluSrc) (s : State), op = .sub ∨ op = .sbc ∨ op = .cp →
    let v := src.value s
    let c := (op == .sbc && s.f.getLsbD 0).toNat
    let res := s.a - v - BitVec.ofNat 8 c
    let xy := if op = .cp then v else res
    Encoded (aluInstr op src) (src.bytes op) src.m1 ∧
    ∃ f, exec (aluInstr op src) s = .next { s with
        a := if op = .cp then s.a else res
        f := f, bus := s.bus ++ src.reads s, tstates := some src.cost } ∧
      FlagsAre f (res.getLsbD 7) (res == 0) (xy.getLsbD 5)
        (decide (s.a.toNat % 16 < v.toNat % 16 + c)) (xy.getLsbD 3)
        (s.a.getLsbD 7 != v.getLsbD 7 && res.getLsbD 7 != s.a.getLsbD 7) true
        (decide (s.a.toNat < v.toNat + c))

/-- AND s, XOR s and OR s in every operand form: S, Z, Y, X and parity from the result, H set by AND alone, N
and C clear (43_alu8 R232, R237, R238, R239). -/
def Obligations.LogicOnAccumulator : Prop :=
  ∀ (op : AluOp) (src : AluSrc) (s : State), op = .and ∨ op = .xor ∨ op = .or →
    let v := src.value s
    let res := if op = .and then s.a &&& v else if op = .xor then s.a ^^^ v else s.a ||| v
    Encoded (aluInstr op src) (src.bytes op) src.m1 ∧
    ∃ f, exec (aluInstr op src) s = .next { s with
        a := res, f := f, bus := s.bus ++ src.reads s, tstates := some src.cost } ∧
      FlagsAre f (res.getLsbD 7) (res == 0) (res.getLsbD 5) (op == .and) (res.getLsbD 3) (evenParity res)
        false false

/-- INC m and DEC m in every operand form: the operand counts mod 256, overflow is the fixed boundary, C stays
(43_alu8 R241, R242). -/
def Obligations.IncrementAndDecrement : Prop :=
  ∀ (m : Operand) (s : State),
    (∀ i, incInstr m = some i → Encoded i (m.incBytes 0b100) m.incM1 ∧
      ∃ t, exec i s = .next t ∧
        let v := m.value s
        Modified m s t (v + 1) t.f m.incCost ∧
        FlagsAre t.f ((v + 1).getLsbD 7) (v == 0xFF) ((v + 1).getLsbD 5) (v.toNat % 16 == 15)
          ((v + 1).getLsbD 3) (v == 0x7F) false (s.f.getLsbD 0)) ∧
    (∀ i, decInstr m = some i → Encoded i (m.incBytes 0b101) m.incM1 ∧
      ∃ t, exec i s = .next t ∧
        let v := m.value s
        Modified m s t (v - 1) t.f m.incCost ∧
        FlagsAre t.f ((v - 1).getLsbD 7) (v == 0x01) ((v - 1).getLsbD 5) (v.toNat % 16 == 0)
          ((v - 1).getLsbD 3) (v == 0x80) true (s.f.getLsbD 0))

/-! ### General arithmetic and control -/

/-- DAA, every A and F: the correction is that of the decision table and that of the closed form which
44_general R260 gives beside it. -/
def Obligations.DecimalAdjust : Prop :=
  let table (c : Bool) (hi : Nat) (h : Bool) (lo : Nat) : Byte :=
    match c, h with
    | false, false => if hi ≤ 9 ∧ lo ≤ 9 then 0x00 else if hi ≤ 8 then 0x06 else if lo ≤ 9 then 0x60 else 0x66
    | false, true => if hi ≤ 9 ∧ lo ≤ 9 then 0x06 else if hi ≤ 8 then 0x06 else 0x66
    | true, false => if lo ≤ 9 then 0x60 else 0x66
    | true, true => 0x66
  ∀ s : State, Encoded .daa [0x27] 1 ∧
    let lo := s.a.toNat % 16
    let h := s.f.getLsbD 4
    let n := s.f.getLsbD 1
    let newC := s.f.getLsbD 0 || decide (0x99 < s.a.toNat)
    let corr := table (s.f.getLsbD 0) (s.a.toNat / 16) h lo
    corr = (if h || decide (9 < lo) then 0x06 else 0x00) + (if newC then 0x60 else 0x00) ∧
    let a := if n then s.a - corr else s.a + corr
    ∃ f, exec .daa s = .next { s with a := a, f := f, tstates := some 4 } ∧
      FlagsAre f (a.getLsbD 7) (a == 0) (a.getLsbD 5) (if n then h && decide (lo < 6) else decide (9 < lo))
        (a.getLsbD 3) (evenParity a) n newC

/-- What DAA is for: after ADD A,s or ADC A,s of two packed decimal bytes it leaves their decimal sum mod 100,
packed, with the carry of the sum in C (43_alu8 R233, R234; 44_general R260). -/
def Obligations.DecimalAdjustAfterAddition : Prop :=
  ∀ (s : State) (r : Reg8) (withCarry : Bool) (t u : State),
    let packed (v : Byte) : Prop := v.toNat / 16 ≤ 9 ∧ v.toNat % 16 ≤ 9
    let decimal (v : Byte) : Nat := v.toNat / 16 * 10 + v.toNat % 16
    packed s.a → packed (s.reg8 r) →
    exec (if withCarry then .adcReg r else .addReg r) s = .next t → exec .daa t = .next u →
    packed u.a ∧
      decimal u.a + 100 * (u.f.getLsbD 0).toNat =
        decimal s.a + decimal (s.reg8 r) + (withCarry && s.f.getLsbD 0).toNat

/-- CPL, NEG with its mirrors, SCF and CCF. Y and X of SCF and CCF are those of A under `from_A`, and each that
of A or that of A or F under `chip_Q` (44_general R261 to R265). -/
def Obligations.ComplementAndCarry : Prop :=
  let open53 (s : State) (y x : Bool) : Prop :=
    match s.params.scfFlags with
    | .fromA => y = s.a.getLsbD 5 ∧ x = s.a.getLsbD 3
    | .chipQ => (y = s.a.getLsbD 5 ∨ y = (s.a ||| s.f).getLsbD 5) ∧
        (x = s.a.getLsbD 3 ∨ x = (s.a ||| s.f).getLsbD 3)
  (∀ s : State, Encoded .cpl [0x2F] 1 ∧ ∃ f, exec .cpl s = .next { s with
      a := ~~~s.a, f := f, tstates := some 4 } ∧
    FlagsAre f (s.f.getLsbD 7) (s.f.getLsbD 6) (!s.a.getLsbD 5) true (!s.a.getLsbD 3) (s.f.getLsbD 2) true
      (s.f.getLsbD 0)) ∧
  (∀ (y : BitVec 3) (s : State), Encoded (.neg y) [0xED, 0b01#2 ++ y ++ 0b100#3] 2 ∧
    ∃ f, exec (.neg y) s = .next { s with a := -s.a, f := f, tstates := some 8 } ∧
      FlagsAre f ((-s.a).getLsbD 7) (s.a == 0) ((-s.a).getLsbD 5) (s.a.toNat % 16 != 0) ((-s.a).getLsbD 3)
        (s.a == 0x80) true (s.a != 0)) ∧
  (∀ s : State, Encoded .ccf [0x3F] 1 ∧ ∃ f y x draws,
    exec .ccf s = .next { s with f := f, draws := draws, tstates := some 4 } ∧ open53 s y x ∧
    FlagsAre f (s.f.getLsbD 7) (s.f.getLsbD 6) y (s.f.getLsbD 0) x (s.f.getLsbD 2) false (!s.f.getLsbD 0)) ∧
  (∀ s : State, Encoded .scf [0x37] 1 ∧ ∃ f y x draws,
    exec .scf s = .next { s with f := f, draws := draws, tstates := some 4 } ∧ open53 s y x ∧
    FlagsAre f (s.f.getLsbD 7) (s.f.getLsbD 6) y false x (s.f.getLsbD 2) false true)

/-- NOP, HALT (PC back on its opcode byte), DI, EI with its delay, and IM 0, 1 and 2 with their mirrors: no
flag changes, no data transaction (44_general R266 to R270). -/
def Obligations.ControlInstructions : Prop :=
  (∀ s : State, Encoded .nop [0x00] 1 ∧ exec .nop s = .next { s with tstates := some 4 }) ∧
  (∀ s : State, Encoded .halt [0x76] 1 ∧
    exec .halt s = .next { s with halted := true, pc := s.pc - 1, tstates := some 4 }) ∧
  (∀ s : State, Encoded .di [0xF3] 1 ∧
    exec .di s = .next { s with iff1 := false, iff2 := false, tstates := some 4 }) ∧
  (∀ s : State, Encoded .ei [0xFB] 1 ∧
    exec .ei s = .next { s with iff1 := true, iff2 := true, eiDelay := 1, tstates := some 4 }) ∧
  (∀ (y : BitVec 3) (s : State), Encoded (.im0 y) [0xED, 0b01#2 ++ y ++ 0b110#3] 2 ∧
    ((Instr.im0 y).wellFormed = true ↔ y = 0 ∨ y = 1 ∨ y = 4 ∨ y = 5) ∧
    exec (.im0 y) s = .next { s with im := .im0, tstates := some 8 }) ∧
  (∀ (y : BitVec 3) (s : State), Encoded (.im1 y) [0xED, 0b01#2 ++ y ++ 0b110#3] 2 ∧
    ((Instr.im1 y).wellFormed = true ↔ y = 2 ∨ y = 6) ∧
    exec (.im1 y) s = .next { s with im := .im1, tstates := some 8 }) ∧
  (∀ (y : BitVec 3) (s : State), Encoded (.im2 y) [0xED, 0b01#2 ++ y ++ 0b110#3] 2 ∧
    ((Instr.im2 y).wellFormed = true ↔ y = 3 ∨ y = 7) ∧
    exec (.im2 y) s = .next { s with im := .im2, tstates := some 8 })

/-! ### 16-bit arithmetic -/

/-- ADD HL,ss and ADD XR,pp (S, Z and PV stay), ADC HL,ss and SBC HL,ss (all flags)
(45_alu16 R290 to R295). -/
def Obligations.WordArithmetic : Prop :=
  let added (a b : Word) (before f : Byte) : Prop :=
    FlagsAre f (before.getLsbD 7) (before.getLsbD 6) ((a + b).getLsbD 13)
      (decide (4095 < a.toNat % 4096 + b.toNat % 4096)) ((a + b).getLsbD 11) (before.getLsbD 2) false
      (decide (65535 < a.toNat + b.toNat))
  (∀ (rr : Pair) (s : State), Encoded (.addHlPair rr) [0b00#2 ++ pairCode rr ++ 0b1001#4] 1 ∧
    (let res := s.hl + s.pair rr
    ∃ f, exec (.addHlPair rr) s = .next { s with
        h := res.extractLsb' 8 8, l := res.extractLsb' 0 8, f := f, tstates := some 11 } ∧
      added s.hl (s.pair rr) s.f f)) ∧
  (∀ (x : XR) (pp : IdxPair) (s : State),
    Encoded (.addXrPair x pp) [xrCode x, 0b00#2 ++ idxPairCode pp ++ 0b1001#4] 2 ∧
    (let v := match pp with | .bc => s.bc | .de => s.de | .xr => s.xr x | .sp => s.sp
    ∃ f, exec (.addXrPair x pp) s = .next { s.setXr x (s.xr x + v) with f := f, tstates := some 15 } ∧
      added (s.xr x) v s.f f)) ∧
  (∀ (rr : Pair) (s : State), Encoded (.adcHlPair rr) [0xED, 0b01#2 ++ pairCode rr ++ 0b1010#4] 2 ∧
    (let c := (s.f.getLsbD 0).toNat
    let sum := s.hl.toNat + (s.pair rr).toNat + c
    let res := BitVec.ofNat 16 sum
    ∃ f, exec (.adcHlPair rr) s = .next { s with
        h := res.extractLsb' 8 8, l := res.extractLsb' 0 8, f := f, tstates := some 15 } ∧
      FlagsAre f (res.getLsbD 15) (res == 0) (res.getLsbD 13)
        (decide (4095 < s.hl.toNat % 4096 + (s.pair rr).toNat % 4096 + c)) (res.getLsbD 11)
        (s.hl.getLsbD 15 == (s.pair rr).getLsbD 15 && res.getLsbD 15 != s.hl.getLsbD 15) false
        (decide (65535 < sum)))) ∧
  (∀ (rr : Pair) (s : State), Encoded (.sbcHlPair rr) [0xED, 0b01#2 ++ pairCode rr ++ 0b0010#4] 2 ∧
    (let c := (s.f.getLsbD 0).toNat
    let res := s.hl - s.pair rr - BitVec.ofNat 16 c
    ∃ f, exec (.sbcHlPair rr) s = .next { s with
        h := res.extractLsb' 8 8, l := res.extractLsb' 0 8, f := f, tstates := some 15 } ∧
      FlagsAre f (res.getLsbD 15) (res == 0) (res.getLsbD 13)
        (decide (s.hl.toNat % 4096 < (s.pair rr).toNat % 4096 + c)) (res.getLsbD 11)
        (s.hl.getLsbD 15 != (s.pair rr).getLsbD 15 && res.getLsbD 15 != s.hl.getLsbD 15) true
        (decide (s.hl.toNat < (s.pair rr).toNat + c))))

/-- INC ss, INC XR, DEC ss and DEC XR count mod 2^16 and write no flag (45_alu16 R296 to R299). -/
def Obligations.WordIncrementAndDecrement : Prop :=
  (∀ (rr : Pair) (s : State), Encoded (.incPair rr) [0b00#2 ++ pairCode rr ++ 0b0011#4] 1 ∧
    exec (.incPair rr) s = .next { s.setPair rr (s.pair rr + 1) with tstates := some 6 }) ∧
  (∀ (x : XR) (s : State), Encoded (.incXr x) [xrCode x, 0x23] 2 ∧
    exec (.incXr x) s = .next { s.setXr x (s.xr x + 1) with tstates := some 10 }) ∧
  (∀ (rr : Pair) (s : State), Encoded (.decPair rr) [0b00#2 ++ pairCode rr ++ 0b1011#4] 1 ∧
    exec (.decPair rr) s = .next { s.setPair rr (s.pair rr - 1) with tstates := some 6 }) ∧
  (∀ (x : XR) (s : State), Encoded (.decXr x) [xrCode x, 0x2B] 2 ∧
    exec (.decXr x) s = .next { s.setXr x (s.xr x - 1) with tstates := some 10 })

/-! ### Rotates, shifts, bits -/

/-- RLCA, RRCA, RLA and RRA move A by one bit with the bit shifted out in C, S, Z and PV kept; RLD and RRD
rotate three nibbles through A and the byte at HL, with C kept (46_rotate_shift R310 to R313, R323, R324). -/
def Obligations.AccumulatorRotates : Prop :=
  let rotates (i : Instr) (op : Byte) (s : State) (res : Byte) (out : Bool) : Prop :=
    Encoded i [op] 1 ∧ ∃ f, exec i s = .next { s with a := res, f := f, tstates := some 4 } ∧
      FlagsAre f (s.f.getLsbD 7) (s.f.getLsbD 6) (res.getLsbD 5) false (res.getLsbD 3) (s.f.getLsbD 2) false
        out
  let digits (i : Instr) (op : Byte) (s : State) (stored a : Byte) : Prop :=
    Encoded i [0xED, op] 2 ∧ ∃ t, exec i s = .next t ∧
      t = { s with
        a := a, f := t.f, mem := t.mem, bus := s.bus ++ [mr s.hl (s.byteAt s.hl), mw s.hl stored]
        tstates := some 18 } ∧
      FlagsAre t.f (a.getLsbD 7) (a == 0) (a.getLsbD 5) false (a.getLsbD 3) (evenParity a) false
        (s.f.getLsbD 0) ∧
      Wrote s t [(s.hl, stored)]
  ∀ s : State,
    let c := s.f.getLsbD 0
    let m := s.byteAt s.hl
    rotates .rlca 0x07 s (s.a.rotateLeft 1) (s.a.getLsbD 7) ∧
    rotates .rrca 0x0F s (s.a.rotateRight 1) (s.a.getLsbD 0) ∧
    rotates .rla 0x17 s (s.a.extractLsb' 0 7 ++ BitVec.ofBool c) (s.a.getLsbD 7) ∧
    rotates .rra 0x1F s (BitVec.ofBool c ++ s.a.extractLsb' 1 7) (s.a.getLsbD 0) ∧
    digits .rld 0x6F s (m.extractLsb' 0 4 ++ s.a.extractLsb' 0 4) (s.a.extractLsb' 4 4 ++ m.extractLsb' 4 4) ∧
    digits .rrd 0x67 s (s.a.extractLsb' 0 4 ++ m.extractLsb' 4 4) (s.a.extractLsb' 4 4 ++ m.extractLsb' 0 4)

/-- The eight CB rotates and shifts on a register, on (HL), on (XR+d) and on (XR+d) with a copy: the operand
moves by one bit as its row says, C takes the bit shifted out, S, Z, Y, X and parity come from the result, H
and N are clear; the copy goes to H and L, never to XRH and XRL (46_rotate_shift R314 to R322). -/
def Obligations.RotatesAndShifts : Prop :=
  ∀ (k : Rot) (m : Operand) (i : Instr) (s : State), rotInstr k m = some i →
    Encoded i (m.cbBytes 0b00 (rotCode k)) 2 ∧
    ∃ t, exec i s = .next t ∧
      let v := m.value s
      let res := rotated k v (s.f.getLsbD 0)
      Modified m s t res t.f m.cbCost ∧
      FlagsAre t.f (res.getLsbD 7) (res == 0) (res.getLsbD 5) false (res.getLsbD 3) (evenParity res) false
        (shiftedOut k v)

/-- BIT b of a register, of (HL) and of (XR+d): Z and PV are the complement of the bit, S is the bit where
b = 7, H is set, N clear, C kept; Y and X come from the register, or from the high byte of the address; for
(HL) they are bits of a free value, whatever it is (47_bit R340, R341, R342; log entry 10). -/
def Obligations.BitTest : Prop :=
  let tested (v : Byte) (b : BitVec 3) (xy before f : Byte) : Prop :=
    let t := v.getLsbD b.toNat
    FlagsAre f (b == 7 && t) (!t) (xy.getLsbD 5) true (xy.getLsbD 3) (!t) false (before.getLsbD 0)
  (∀ (b : BitVec 3) (r : Reg8) (s : State), Encoded (.bitReg b r) [0xCB, 0b01#2 ++ b ++ r.code] 2 ∧
    ∃ f, exec (.bitReg b r) s = .next { s with f := f, tstates := some 8 } ∧
      tested (s.reg8 r) b (s.reg8 r) s.f f) ∧
  (∀ (b : BitVec 3) (s : State), Encoded (.bitAtHl b) [0xCB, 0b01#2 ++ b ++ 0b110#3] 2 ∧
    ∃ f, exec (.bitAtHl b) s = .next { s with
        f := f, bus := s.bus ++ [mr s.hl (s.byteAt s.hl)], draws := s.draws + 1, tstates := some 12 } ∧
      tested (s.byteAt s.hl) b (Config.freeByte s.draws) s.f f) ∧
  (∀ (x : XR) (d : Byte) (b z : BitVec 3) (s : State),
    Encoded (.bitAtXr x d b z) [xrCode x, 0xCB, d, 0b01#2 ++ b ++ z] 2 ∧
    (let ea := s.xr x + d.signExtend 16
    ∃ f, exec (.bitAtXr x d b z) s = .next { s with
        f := f, bus := s.bus ++ [mr ea (s.byteAt ea)], tstates := some 20 } ∧
      tested (s.byteAt ea) b (ea.extractLsb' 8 8) s.f f))

/-- SET b and RES b of a register, of (HL), of (XR+d) and of (XR+d) with a copy: exactly bit b changes, the
write happens whatever the bit was, F stays (47_bit R343 to R348). -/
def Obligations.SetAndResetBit : Prop :=
  ∀ (b : BitVec 3) (m : Operand) (i : Instr) (s : State),
    (setInstr b m = some i → Encoded i (m.cbBytes 0b11 b) 2 ∧
      ∃ t res, exec i s = .next t ∧ Modified m s t res s.f m.cbCost ∧
        ∀ k, k < 8 → res.getLsbD k = (k == b.toNat || (m.value s).getLsbD k)) ∧
    (resInstr b m = some i → Encoded i (m.cbBytes 0b10 b) 2 ∧
      ∃ t res, exec i s = .next t ∧ Modified m s t res s.f m.cbCost ∧
        ∀ k, k < 8 → res.getLsbD k = (k != b.toNat && (m.value s).getLsbD k))

/-! ### Jumps, calls, returns -/

/-- JP nn, JP cc,nn, JP (HL), JP (XR), JR e, JR cc,e and DJNZ e: where PC goes, taken and not taken, from the
address after the instruction; only DJNZ writes a register, and no flag changes (48_jump_call R360 to R366;
10_state R41). -/
def Obligations.Jumps : Prop :=
  (∀ (nn : Word) (s : State), Encoded (.jp nn) [0xC3, nn.extractLsb' 0 8, nn.extractLsb' 8 8] 1 ∧
    exec (.jp nn) s = .next { s with pc := nn, tstates := some 10 }) ∧
  (∀ (cc : Cond) (nn : Word) (s : State),
    Encoded (.jpCond cc nn) [0b11#2 ++ condCode cc ++ 0b010#3, nn.extractLsb' 0 8, nn.extractLsb' 8 8] 1 ∧
    exec (.jpCond cc nn) s = .next { s with
      pc := if ccHolds (condCode cc) s.f then nn else s.pc, tstates := some 10 }) ∧
  (∀ (e : Byte) (s : State), Encoded (.jr e) [0x18, e] 1 ∧
    exec (.jr e) s = .next { s with pc := s.pc + e.signExtend 16, tstates := some 12 }) ∧
  (∀ (cc : JrCond) (e : Byte) (s : State),
    Encoded (.jrCond cc e) [0b001#3 ++ jrCondCode cc ++ 0b000#3, e] 1 ∧
    (let taken := ccHolds (0b0#1 ++ jrCondCode cc) s.f
    exec (.jrCond cc e) s = .next { s with
      pc := if taken then s.pc + e.signExtend 16 else s.pc, tstates := some (if taken then 12 else 7) })) ∧
  (∀ s : State, Encoded .jpHl [0xE9] 1 ∧
    exec .jpHl s = .next { s with pc := s.h ++ s.l, tstates := some 4 }) ∧
  (∀ (x : XR) (s : State), Encoded (.jpXr x) [xrCode x, 0xE9] 2 ∧
    exec (.jpXr x) s = .next { s with pc := s.xr x, tstates := some 8 }) ∧
  (∀ (e : Byte) (s : State), Encoded (.djnz e) [0x10, e] 1 ∧
    exec (.djnz e) s = .next { s with
      b := s.b - 1, pc := if s.b = 1 then s.pc else s.pc + e.signExtend 16
      tstates := some (if s.b = 1 then 8 else 13) })

/-- CALL nn, CALL cc,nn and RST t push the address after the instruction and jump, a call not taken does
nothing; RET, RET cc, RETI and RETN pop PC, and RETI and RETN copy IFF2 to IFF1; no flag changes
(48_jump_call R367 to R373; 10_state R41). -/
def Obligations.CallsAndReturns : Prop :=
  let calls (i : Instr) (s : State) (target : Word) (cost : Nat) : Prop :=
    ∃ t, exec i s = .next t ∧
      t = { s with
        pc := target, sp := s.sp - 2, mem := t.mem
        bus := s.bus ++ [mw (s.sp - 1) (s.pc.extractLsb' 8 8), mw (s.sp - 2) (s.pc.extractLsb' 0 8)]
        tstates := some cost } ∧
      Wrote s t [(s.sp - 1, s.pc.extractLsb' 8 8), (s.sp - 2, s.pc.extractLsb' 0 8)]
  let returned (s : State) (cost : Nat) : State :=
    { s with
      pc := s.byteAt (s.sp + 1) ++ s.byteAt s.sp, sp := s.sp + 2
      bus := s.bus ++ [mr s.sp (s.byteAt s.sp), mr (s.sp + 1) (s.byteAt (s.sp + 1))], tstates := some cost }
  (∀ (nn : Word) (s : State), Encoded (.call nn) [0xCD, nn.extractLsb' 0 8, nn.extractLsb' 8 8] 1 ∧
    calls (.call nn) s nn 17) ∧
  (∀ (cc : Cond) (nn : Word) (s : State),
    Encoded (.callCond cc nn) [0b11#2 ++ condCode cc ++ 0b100#3, nn.extractLsb' 0 8, nn.extractLsb' 8 8] 1 ∧
    if ccHolds (condCode cc) s.f then calls (.callCond cc nn) s nn 17
    else exec (.callCond cc nn) s = .next { s with tstates := some 10 }) ∧
  (∀ (t : BitVec 3) (s : State), Encoded (.rst t) [0b11#2 ++ t ++ 0b111#3] 1 ∧
    calls (.rst t) s (BitVec.ofNat 16 (8 * t.toNat)) 11) ∧
  (∀ s : State, Encoded .ret [0xC9] 1 ∧ exec .ret s = .next (returned s 10)) ∧
  (∀ (cc : Cond) (s : State), Encoded (.retCond cc) [0b11#2 ++ condCode cc ++ 0b000#3] 1 ∧
    exec (.retCond cc) s =
      .next (if ccHolds (condCode cc) s.f then returned s 11 else { s with tstates := some 5 })) ∧
  (∀ s : State, Encoded .reti [0xED, 0x4D] 2 ∧
    exec .reti s = .next { returned s 14 with iff1 := s.iff2 }) ∧
  (∀ (y : BitVec 3) (s : State), Encoded (.retn y) [0xED, 0b01#2 ++ y ++ 0b101#3] 2 ∧
    ((Instr.retn y).wellFormed = true ↔ y ≠ 1) ∧
    exec (.retn y) s = .next { returned s 14 with iff1 := s.iff2 })

/-! ### Input and output -/

/-- IN A,(n), IN r,(C) and IN F,(C) take the byte the device answers, whatever it is; OUT (n),A, OUT (C),r and
OUT (C),0 write one; the port is A:n or B:C before the instruction; only the (C) reads write flags. OUT (C),0
writes OUT_C0_VALUE (49_io R390 to R392, R397 to R399; 20_memory R75). -/
def Obligations.InputAndOutput : Prop :=
  let inFlag (v before f : Byte) : Prop :=
    FlagsAre f (v.getLsbD 7) (v == 0) (v.getLsbD 5) false (v.getLsbD 3) (evenParity v) false (before.getLsbD 0)
  (∀ (n : Byte) (s : State), Encoded (.inAN n) [0xDB, n] 1 ∧
    (let v := Config.ioAnswer s.draws (s.a ++ n)
    exec (.inAN n) s = .next { s with
      a := v, bus := s.bus ++ [ior (s.a ++ n) v], draws := s.draws + 1, tstates := some 11 })) ∧
  (∀ (r : Reg8) (s : State), Encoded (.inRegC r) [0xED, 0b01#2 ++ r.code ++ 0b000#3] 2 ∧
    (let v := Config.ioAnswer s.draws (s.b ++ s.c)
    ∃ f, exec (.inRegC r) s = .next { s.setReg8 r v with
        f := f, bus := s.bus ++ [ior (s.b ++ s.c) v], draws := s.draws + 1, tstates := some 12 } ∧
      inFlag v s.f f)) ∧
  (∀ s : State, Encoded .inFC [0xED, 0x70] 2 ∧
    (let v := Config.ioAnswer s.draws (s.b ++ s.c)
    ∃ f, exec .inFC s = .next { s with
        f := f, bus := s.bus ++ [ior (s.b ++ s.c) v], draws := s.draws + 1, tstates := some 12 } ∧
      inFlag v s.f f)) ∧
  (∀ (n : Byte) (s : State), Encoded (.outNA n) [0xD3, n] 1 ∧
    exec (.outNA n) s = .next { s with bus := s.bus ++ [iow (s.a ++ n) s.a], tstates := some 11 }) ∧
  (∀ (r : Reg8) (s : State), Encoded (.outCReg r) [0xED, 0b01#2 ++ r.code ++ 0b001#3] 2 ∧
    exec (.outCReg r) s = .next { s with bus := s.bus ++ [iow (s.b ++ s.c) (s.reg8 r)], tstates := some 12 }) ∧
  (∀ s : State, Encoded .outC0 [0xED, 0x71] 2 ∧
    exec .outC0 s = .next { s with bus := s.bus ++ [iow (s.b ++ s.c) s.params.outC0Value], tstates := some 12 })

/-- INI, IND, INIR and INDR read the port with B before the decrement and store at HL; OUTI, OUTD, OTIR and
OTDR write the byte at HL to the port with B after it; the flags are IOFLAGS of the decremented B; the
repeating ones rewind PC by 2 and take 21 T-states exactly while B ≠ 0. In a repeating iteration under
`chip_2018` Y and X are bits 13 and 11 of the rewound PC, and H and PV are any value (49_io R393 to R396, R400 to
R403; 42_exchange_block R213). -/
def Obligations.BlockInputOutput : Prop :=
  let ioFlags (s : State) (again : Bool) (v b : Byte) (k : Nat) (f : Byte) : Prop :=
    let chip := again && s.params.repeatFlags == .chip2018
    ∃ h pv, (chip = false → h = decide (255 < k) ∧ pv = evenParity (BitVec.ofNat 8 (k % 8) ^^^ b)) ∧
      FlagsAre f (b.getLsbD 7) (b == 0) (if chip then (s.pc - 2).getLsbD 13 else b.getLsbD 5) h
        (if chip then (s.pc - 2).getLsbD 11 else b.getLsbD 3) pv (v.getLsbD 7) (decide (255 < k))
  let input (i : Instr) (op : Byte) (s : State) (step : Word) (repeating : Bool) : Prop :=
    Encoded i [0xED, op] 2 ∧ ∃ t, exec i s = .next t ∧
      let v := Config.ioAnswer s.draws (s.b ++ s.c)
      let b := s.b - 1
      let again := repeating && b != 0
      t = { s with
        b := b, h := (s.hl + step).extractLsb' 8 8, l := (s.hl + step).extractLsb' 0 8, f := t.f
        pc := if again then s.pc - 2 else s.pc, mem := t.mem
        bus := s.bus ++ [ior (s.b ++ s.c) v, mw s.hl v], draws := t.draws
        tstates := some (if again then 21 else 16) } ∧
      ioFlags s again v b (v.toNat + (s.c + step.extractLsb' 0 8).toNat) t.f ∧ Wrote s t [(s.hl, v)]
  let output (i : Instr) (op : Byte) (s : State) (step : Word) (repeating : Bool) : Prop :=
    Encoded i [0xED, op] 2 ∧ ∃ f draws,
      let v := s.byteAt s.hl
      let b := s.b - 1
      let hl := s.hl + step
      let again := repeating && b != 0
      exec i s = .next { s with
        b := b, h := hl.extractLsb' 8 8, l := hl.extractLsb' 0 8, f := f
        pc := if again then s.pc - 2 else s.pc, bus := s.bus ++ [mr s.hl v, iow (b ++ s.c) v], draws := draws
        tstates := some (if again then 21 else 16) } ∧
      ioFlags s again v b (v.toNat + (hl.extractLsb' 0 8).toNat) f
  ∀ s : State,
    input .ini 0xA2 s 1 false ∧ input .ind 0xAA s (-1) false ∧
    input .inir 0xB2 s 1 true ∧ input .indr 0xBA s (-1) true ∧
    output .outi 0xA3 s 1 false ∧ output .outd 0xAB s (-1) false ∧
    output .otir 0xB3 s 1 true ∧ output .otdr 0xBB s (-1) true

/-! ### Prefix rows -/

/-- The rows of the prefixes run the table entry they select: the CB row and the XYCB row run as the
instruction their bytes decode to; the ED row of a populated entry and the DD and FD rows fetch the bytes that
entry still has and run as it; the ED row of an unpopulated entry records InvalidOpcode and the DD or FD row of a
member of UNDOC_UNIMPL records UnimplementedUndocumented, and nothing else changes (30_encoding R105, R107, R108,
R110, R115, R116; the rows as instructions are the model's choice, log entry 15). -/
def Obligations.PrefixRowsRunTheirEntry : Prop :=
  (∀ (op : Byte) (i : Instr) (s : State), decode [0xCB, op] = .ok (i, []) →
    ∃ t, exec (.prefixCB op) s = .next t ∧ exec i s = .next t) ∧
  (∀ (x : XR) (d op : Byte) (i : Instr) (s : State), decode [xrCode x, 0xCB, d, op] = .ok (i, []) →
    ∃ t, exec (.prefixXrCB x d op) s = .next t ∧ exec i s = .next t) ∧
  (∀ (op : Byte) (i : Instr) (rest : List Byte) (s : State) (n : Nat), edPopulated op = true →
    decodeWith s.params.undocUnimpl (0xED :: op :: s.bytesFrom n 0 s.pc) = .ok (i, rest) →
    ∃ t, exec (.prefixED op) s = .next t ∧ exec i (s.fetchedRest i) = .next t) ∧
  (∀ (op : Byte) (s : State), edPopulated op = false →
    exec (.prefixED op) s = .next { s with
      fault := some { kind := .invalidOpcode, pc := s.firstFetch, bytes := s.fetchedOpcodes }
      tstates := none }) ∧
  (∀ (op : Byte) (i : Instr) (rest : List Byte) (s : State) (n : Nat),
    decodeWith s.params.undocUnimpl (0xDD :: op :: s.bytesFrom n 0 s.pc) = .ok (i, rest) →
    ∃ t, exec (.prefixDD op) s = .next t ∧ exec i (s.fetchedRest i) = .next t) ∧
  (∀ (op : Byte) (i : Instr) (rest : List Byte) (s : State) (n : Nat),
    decodeWith s.params.undocUnimpl (0xFD :: op :: s.bytesFrom n 0 s.pc) = .ok (i, rest) →
    ∃ t, exec (.prefixFD op) s = .next t ∧ exec i (s.fetchedRest i) = .next t) ∧
  (∀ (x : XR) (op : Byte) (s : State), (x, op) ∈ s.params.undocUnimpl →
    op ≠ 0xCB → op ≠ 0xDD → op ≠ 0xED → op ≠ 0xFD →
    exec (match x with | .ix => .prefixDD op | .iy => .prefixFD op) s = .next { s with
      fault := some { kind := .unimplementedUndocumented, pc := s.firstFetch, bytes := s.fetchedOpcodes }
      tstates := none })

/-- An index prefix before another index prefix, before an ED instruction and before a base instruction that
it does not modify: it is one byte in front of the instruction, fetched as an opcode, so it counts R once
(`FetchReadsEveryByte`); everything else is as without it, but the step costs 4 T-states more
(30_encoding R104, R112, R113, R114; the prefix as a row of its own is the model's choice, log entry 18). -/
def Obligations.IgnoredPrefixCostsFour : Prop :=
  ∀ (x : XR) (i : Instr) (s : State),
    (i.lead = .index ∨ i.lead = .ed ∨ (i.lead = .plain ∧ i.substituted = false)) →
    i.wellFormedWith s.params.undocUnimpl = true →
    Encoded (.prefixXrXr x i) (xrCode x :: encode i) (i.m1 + 1) ∧
    Encoded (.prefixXrED x i) (xrCode x :: encode i) (i.m1 + 1) ∧
    Encoded (.prefixXrPass x i) (xrCode x :: encode i) (i.m1 + 1) ∧
    ∃ t, exec i s = .next t ∧
      let u := { t with tstates := t.tstates.map (· + 4) }
      (i.lead = .index → exec (.prefixXrXr x i) s = .next u) ∧
      (i.lead = .ed → exec (.prefixXrED x i) s = .next u) ∧
      (i.lead = .plain → exec (.prefixXrPass x i) s = .next u)
end

