-- ==== Sys2Proof/Laws/Bits.lean ====
section
/-! SUPPORT. Bytes of words, opcode fields, and the field codes of the encodings. -/

namespace Sys2Proof

/-- The bits of `h:l` (00_scope R9). -/
theorem getLsbD_mkWord (h l : Byte) (i : Nat) :
    (mkWord h l).getLsbD i = if i < 8 then l.getLsbD i else h.getLsbD (i - 8) :=
  BitVec.getLsbD_append (x := h) (y := l) (i := i)

theorem hiByte_mkWord (h l : Byte) : hiByte (mkWord h l) = h := by
  apply BitVec.eq_of_getLsbD_eq
  intro i hi
  simp [hiByte, getLsbD_mkWord, hi]

theorem loByte_mkWord (h l : Byte) : loByte (mkWord h l) = l := by
  apply BitVec.eq_of_getLsbD_eq
  intro i hi
  simp [loByte, getLsbD_mkWord, hi]

theorem mkWord_hiByte_loByte (w : Word) : mkWord (hiByte w) (loByte w) = w := by
  apply BitVec.eq_of_getLsbD_eq
  intro i hi
  rw [getLsbD_mkWord]
  split
  · rename_i h
    simp [loByte, h]
  · rename_i h
    simp [hiByte, show i - 8 < 8 by omega, show 8 + (i - 8) = i by omega]

theorem sub_one_sub_one (w : Word) : w - 1#16 - 1#16 = w - 2#16 := by bv_omega

theorem add_one_add_one (w : Word) : w + 1#16 + 1#16 = w + 2#16 := by bv_omega

theorem field3_eq : ∀ v : BitVec 3, field3 v = 0b00#2 ++ v ++ 0b000#3 := by decide

theorem low3_eq : ∀ v : BitVec 3, low3 v = 0b00000#5 ++ v := by decide

/-- An opcode byte is its fields x, y and z (30_encoding R101). -/
theorem op_fields : ∀ op : Byte, op = opX op ++ opY op ++ opZ op := by decide +kernel

/-- A register and its r field (30_encoding R102). -/
theorem reg8Of_code : ∀ r : Reg8, reg8Of r.code = some r := by
  intro r
  cases r <;> rfl

theorem code_of_reg8Of {v : BitVec 3} {r : Reg8} (h : reg8Of v = some r) : r.code = v := by
  revert v
  cases r <;> decide

/-- r = 6 names no register. -/
theorem reg8Of_none {v : BitVec 3} : reg8Of v = none ↔ v = 6 := by
  revert v
  decide

end Sys2Proof
end

