-- ==== Sys2Proof/Laws/Memory.lean ====
section
/-! SUPPORT. The laws of the memory device: a read after a write, and the canonical form that every
operation keeps. -/

namespace Sys2Proof.Machine

theorem memGet_filter_ne (m : List Host.Cell) {a b : Nat} (h : b ≠ a) :
    memGet (m.filter fun cell => cell.1 != a) b = memGet m b := by
  induction m with
  | nil => rfl
  | cons cell rest ih =>
    obtain ⟨k, v⟩ := cell
    by_cases hk : k = a
    · subst hk
      simp [memGet, ih, Ne.symm h]
    · simp [memGet, hk, ih]

theorem memGet_filter_self (m : List Host.Cell) (a : Nat) :
    memGet (m.filter fun cell => cell.1 != a) a = Config.initialByte := by
  induction m with
  | nil => rfl
  | cons cell rest ih =>
    obtain ⟨k, v⟩ := cell
    by_cases hk : k = a
    · simp [hk, ih]
    · simp [hk, memGet, ih]

theorem memGet_insertCell (m : List Host.Cell) {a b : Nat} {v : Byte} (h : ∀ cell ∈ m, cell.1 ≠ a) :
    memGet (insertCell a v m) b = if b = a then v else memGet m b := by
  induction m with
  | nil => simp [insertCell, memGet, eq_comm]
  | cons cell rest ih =>
    obtain ⟨k, w⟩ := cell
    have hk : k ≠ a := h (k, w) (by simp)
    have ih := ih fun c hc => h c (by simp [hc])
    unfold insertCell
    split
    · simp [memGet, eq_comm]
    · by_cases hb : k = b
      · subst hb
        simp [memGet, hk]
      · simp [memGet, hb, ih]

/-- A read after a write (20_memory R74). -/
theorem memGet_memSet (m : List Host.Cell) (a b : Nat) (v : Byte) :
    memGet (memSet m a v) b = if b = a then v else memGet m b := by
  unfold memSet
  by_cases hb : b = a
  · subst hb
    split
    · rename_i hv
      simp [memGet_filter_self, hv]
    · rw [memGet_insertCell] <;> simp
  · split
    · simp [memGet_filter_ne _ hb]
    · rw [memGet_insertCell] <;> simp [memGet_filter_ne _ hb, hb]

theorem wfFrom_mono {m : List Host.Cell} {lo lo' : Nat} (h : lo' ≤ lo) (hm : Memory.wfFrom lo m = true) :
    Memory.wfFrom lo' m = true := by
  cases m with
  | nil => rfl
  | cons cell rest =>
    obtain ⟨k, v⟩ := cell
    simp only [Memory.wfFrom, Bool.and_eq_true, decide_eq_true_eq] at hm ⊢
    exact ⟨⟨⟨by omega, hm.1.1.2⟩, hm.1.2⟩, hm.2⟩

theorem wfFrom_filter {m : List Host.Cell} {lo : Nat} (a : Nat) (hm : Memory.wfFrom lo m = true) :
    Memory.wfFrom lo (m.filter fun cell => cell.1 != a) = true := by
  induction m generalizing lo with
  | nil => rfl
  | cons cell rest ih =>
    obtain ⟨k, v⟩ := cell
    simp only [Memory.wfFrom, Bool.and_eq_true, decide_eq_true_eq] at hm
    by_cases hk : k = a
    · simpa [hk] using ih (wfFrom_mono (by omega) hm.2)
    · have := ih hm.2
      simp [hk, Memory.wfFrom, hm.1.1.1, hm.1.1.2, this]
      simpa using hm.1.2

theorem wfFrom_insertCell {m : List Host.Cell} {lo a : Nat} {v : Byte} (ha : lo ≤ a) (hs : a < 65536)
    (hv : v ≠ Config.initialByte) (hne : ∀ cell ∈ m, cell.1 ≠ a) (hm : Memory.wfFrom lo m = true) :
    Memory.wfFrom lo (insertCell a v m) = true := by
  induction m generalizing lo with
  | nil => simp [insertCell, Memory.wfFrom, ha, hs, hv]
  | cons cell rest ih =>
    obtain ⟨k, w⟩ := cell
    have hk : k ≠ a := hne (k, w) (by simp)
    simp only [Memory.wfFrom, Bool.and_eq_true, decide_eq_true_eq] at hm
    unfold insertCell
    split
    · simp only [Memory.wfFrom, Bool.and_eq_true, decide_eq_true_eq]
      exact ⟨⟨⟨ha, hs⟩, by simpa using hv⟩, ⟨⟨by omega, hm.1.1.2⟩, hm.1.2⟩, hm.2⟩
    · simp only [Memory.wfFrom, Bool.and_eq_true, decide_eq_true_eq]
      exact ⟨⟨⟨hm.1.1.1, hm.1.1.2⟩, hm.1.2⟩,
        ih (by omega) (fun c hc => hne c (by simp [hc])) hm.2⟩

/-- A write keeps the canonical form. -/
theorem memSet_wf {m : List Host.Cell} (a : Word) (v : Byte) (hm : Memory.wf m = true) :
    Memory.wf (memSet m a.toNat v) = true := by
  unfold memSet Memory.wf
  split
  · exact wfFrom_filter _ hm
  · rename_i hv
    exact wfFrom_insertCell (Nat.zero_le _) a.isLt hv (by simp) (wfFrom_filter _ hm)

/-- The memory of the state after power-on is in the canonical form. -/
theorem reset_mem_wf : Memory.wf State.reset.mem = true := rfl

/-- What an address holds depends on the memory alone. -/
theorem cell_congr {s t : State} (h : t.mem = s.mem) (a : Word) : t.cell a = s.cell a := by
  rw [State.cell, State.cell, h]

/-- The RAM device answers a data read with what the address holds (20_memory R74). -/
theorem byteAt_of_ram {s : State} (h : s.params.memDevice = .ram) (a : Word) : s.byteAt a = s.cell a := by
  rw [State.byteAt, h]

/-- The RAM device answers a fetch with what the address holds (20_memory R74). -/
theorem codeAt_of_ram {s : State} (h : s.params.memDevice = .ram) (k : Nat) (a : Word) :
    s.codeAt k a = s.cell a := by
  rw [State.codeAt, h]

/-- The answer to a data read depends on the memory, the device and the draws made. -/
theorem byteAt_congr {s t : State} (h : t.mem = s.mem) (hp : t.params = s.params) (hd : t.draws = s.draws)
    (a : Word) : t.byteAt a = s.byteAt a := by
  rw [State.byteAt, State.byteAt, hp, hd, cell_congr h]

/-- The answer to a fetch depends on the memory, the device, and the draws and fetches made. -/
theorem codeAt_congr {s t : State} (h : t.mem = s.mem) (hp : t.params = s.params) {j k : Nat}
    (hd : t.draws + j = s.draws + k) (a : Word) : t.codeAt j a = s.codeAt k a := by
  rw [State.codeAt, State.codeAt, hp, hd, cell_congr h]

/-- A memory set at an address holds it there and what it held elsewhere. -/
theorem cell_of_memSet {s t : State} {a : Word} {v : Byte} (h : t.mem = memSet s.mem a.toNat v)
    (b : Word) : t.cell b = if b = a then v else s.cell b := by
  simp only [State.cell, h, memGet_memSet, ← BitVec.toNat_inj]

/-- Nothing is written where the memory stays. -/
theorem wrote_nil {s t : State} (h : t.mem = s.mem) : Wrote s t [] := fun a => by
  simp [lastWrite, cell_congr h a]

/-- One write. -/
theorem wrote_one {s t : State} {a : Word} {v : Byte} (h : t.mem = memSet s.mem a.toNat v) :
    Wrote s t [(a, v)] := fun b => by
  rw [cell_of_memSet h]
  by_cases hb : b = a <;> simp [lastWrite, hb]

/-- Two writes, the second after the first. -/
theorem wrote_two {s t : State} {a b : Word} {v w : Byte}
    (h : t.mem = memSet (memSet s.mem a.toNat v) b.toNat w) : Wrote s t [(a, v), (b, w)] := fun k => by
  by_cases hb : k = b <;> by_cases ha : k = a <;>
    simp_all [lastWrite, State.cell, memGet_memSet, ← BitVec.toNat_inj]

/-- The memory after a push. -/
theorem push_mem (s : State) (v : Word) : (s.push v).mem =
    memSet (memSet s.mem (s.sp - 1).toNat (hiByte v)) (s.sp - 1 - 1).toNat (loByte v) := rfl

/-- `Push` leaves everything but SP, memory and the transactions (20_memory R80). -/
theorem push_eq (s : State) (v : Word) : s.push v = { s with
    sp := s.sp - 1 - 1, mem := (s.push v).mem
    bus := s.bus ++ [mw (s.sp - 1) (hiByte v)] ++ [mw (s.sp - 1 - 1) (loByte v)] } := rfl

/-- `Pop` leaves everything but SP and the transactions (20_memory R81). -/
theorem pop_eq (s : State) : s.pop = (mkWord (s.byteAt (s.sp + 1)) (s.byteAt s.sp), { s with
    sp := s.sp + 1 + 1
    bus := s.bus ++ [mr s.sp (s.byteAt s.sp)] ++ [mr (s.sp + 1) (s.byteAt (s.sp + 1))] }) := rfl

end Sys2Proof.Machine
end

