-- ==== Sys2Proof/Laws/State.lean ====
section
/-! SUPPORT. One lemma per field of State per update: what the field holds afterwards. -/

namespace Sys2Proof.Machine

/-! ### emit -/

@[simp] theorem State.emit_a (s : State) (k : BusKind) (p : Word) (v : Byte) : (s.emit k p v).a = s.a := rfl

@[simp] theorem State.emit_f (s : State) (k : BusKind) (p : Word) (v : Byte) : (s.emit k p v).f = s.f := rfl

@[simp] theorem State.emit_b (s : State) (k : BusKind) (p : Word) (v : Byte) : (s.emit k p v).b = s.b := rfl

@[simp] theorem State.emit_c (s : State) (k : BusKind) (p : Word) (v : Byte) : (s.emit k p v).c = s.c := rfl

@[simp] theorem State.emit_d (s : State) (k : BusKind) (p : Word) (v : Byte) : (s.emit k p v).d = s.d := rfl

@[simp] theorem State.emit_e (s : State) (k : BusKind) (p : Word) (v : Byte) : (s.emit k p v).e = s.e := rfl

@[simp] theorem State.emit_h (s : State) (k : BusKind) (p : Word) (v : Byte) : (s.emit k p v).h = s.h := rfl

@[simp] theorem State.emit_l (s : State) (k : BusKind) (p : Word) (v : Byte) : (s.emit k p v).l = s.l := rfl

@[simp] theorem State.emit_a' (s : State) (k : BusKind) (p : Word) (v : Byte) : (s.emit k p v).a' = s.a' := rfl

@[simp] theorem State.emit_f' (s : State) (k : BusKind) (p : Word) (v : Byte) : (s.emit k p v).f' = s.f' := rfl

@[simp] theorem State.emit_b' (s : State) (k : BusKind) (p : Word) (v : Byte) : (s.emit k p v).b' = s.b' := rfl

@[simp] theorem State.emit_c' (s : State) (k : BusKind) (p : Word) (v : Byte) : (s.emit k p v).c' = s.c' := rfl

@[simp] theorem State.emit_d' (s : State) (k : BusKind) (p : Word) (v : Byte) : (s.emit k p v).d' = s.d' := rfl

@[simp] theorem State.emit_e' (s : State) (k : BusKind) (p : Word) (v : Byte) : (s.emit k p v).e' = s.e' := rfl

@[simp] theorem State.emit_h' (s : State) (k : BusKind) (p : Word) (v : Byte) : (s.emit k p v).h' = s.h' := rfl

@[simp] theorem State.emit_l' (s : State) (k : BusKind) (p : Word) (v : Byte) : (s.emit k p v).l' = s.l' := rfl

@[simp] theorem State.emit_ix (s : State) (k : BusKind) (p : Word) (v : Byte) : (s.emit k p v).ix = s.ix := rfl

@[simp] theorem State.emit_iy (s : State) (k : BusKind) (p : Word) (v : Byte) : (s.emit k p v).iy = s.iy := rfl

@[simp] theorem State.emit_sp (s : State) (k : BusKind) (p : Word) (v : Byte) : (s.emit k p v).sp = s.sp := rfl

@[simp] theorem State.emit_pc (s : State) (k : BusKind) (p : Word) (v : Byte) : (s.emit k p v).pc = s.pc := rfl

@[simp] theorem State.emit_i (s : State) (k : BusKind) (p : Word) (v : Byte) : (s.emit k p v).i = s.i := rfl

@[simp] theorem State.emit_r (s : State) (k : BusKind) (p : Word) (v : Byte) : (s.emit k p v).r = s.r := rfl

@[simp] theorem State.emit_iff1 (s : State) (k : BusKind) (p : Word) (v : Byte) : (s.emit k p v).iff1 = s.iff1 :=
  rfl

@[simp] theorem State.emit_iff2 (s : State) (k : BusKind) (p : Word) (v : Byte) : (s.emit k p v).iff2 = s.iff2 :=
  rfl

@[simp] theorem State.emit_im (s : State) (k : BusKind) (p : Word) (v : Byte) : (s.emit k p v).im = s.im := rfl

@[simp] theorem State.emit_halted (s : State) (k : BusKind) (p : Word) (v : Byte) :
    (s.emit k p v).halted = s.halted :=
  rfl

@[simp] theorem State.emit_eiDelay (s : State) (k : BusKind) (p : Word) (v : Byte) :
    (s.emit k p v).eiDelay = s.eiDelay :=
  rfl

@[simp] theorem State.emit_nmiPending (s : State) (k : BusKind) (p : Word) (v : Byte) :
    (s.emit k p v).nmiPending = s.nmiPending :=
  rfl

@[simp] theorem State.emit_fault (s : State) (k : BusKind) (p : Word) (v : Byte) :
    (s.emit k p v).fault = s.fault :=
  rfl

@[simp] theorem State.emit_intLine (s : State) (k : BusKind) (p : Word) (v : Byte) :
    (s.emit k p v).intLine = s.intLine :=
  rfl

@[simp] theorem State.emit_busByte (s : State) (k : BusKind) (p : Word) (v : Byte) :
    (s.emit k p v).busByte = s.busByte :=
  rfl

@[simp] theorem State.emit_mem (s : State) (k : BusKind) (p : Word) (v : Byte) : (s.emit k p v).mem = s.mem := rfl

@[simp] theorem State.emit_bus (s : State) (k : BusKind) (p : Word) (v : Byte) :
    (s.emit k p v).bus = s.bus ++ [{ kind := k, addr := p, data := v }] :=
  rfl

@[simp] theorem State.emit_tstates (s : State) (k : BusKind) (p : Word) (v : Byte) :
    (s.emit k p v).tstates = s.tstates :=
  rfl

@[simp] theorem State.emit_draws (s : State) (k : BusKind) (p : Word) (v : Byte) :
    (s.emit k p v).draws = s.draws :=
  rfl

@[simp] theorem State.emit_params (s : State) (k : BusKind) (p : Word) (v : Byte) :
    (s.emit k p v).params = s.params :=
  rfl

/-! ### readAt -/

@[simp] theorem State.readAt_a (s : State) (p : Word) : (s.readAt p).a = s.a := rfl

@[simp] theorem State.readAt_f (s : State) (p : Word) : (s.readAt p).f = s.f := rfl

@[simp] theorem State.readAt_b (s : State) (p : Word) : (s.readAt p).b = s.b := rfl

@[simp] theorem State.readAt_c (s : State) (p : Word) : (s.readAt p).c = s.c := rfl

@[simp] theorem State.readAt_d (s : State) (p : Word) : (s.readAt p).d = s.d := rfl

@[simp] theorem State.readAt_e (s : State) (p : Word) : (s.readAt p).e = s.e := rfl

@[simp] theorem State.readAt_h (s : State) (p : Word) : (s.readAt p).h = s.h := rfl

@[simp] theorem State.readAt_l (s : State) (p : Word) : (s.readAt p).l = s.l := rfl

@[simp] theorem State.readAt_a' (s : State) (p : Word) : (s.readAt p).a' = s.a' := rfl

@[simp] theorem State.readAt_f' (s : State) (p : Word) : (s.readAt p).f' = s.f' := rfl

@[simp] theorem State.readAt_b' (s : State) (p : Word) : (s.readAt p).b' = s.b' := rfl

@[simp] theorem State.readAt_c' (s : State) (p : Word) : (s.readAt p).c' = s.c' := rfl

@[simp] theorem State.readAt_d' (s : State) (p : Word) : (s.readAt p).d' = s.d' := rfl

@[simp] theorem State.readAt_e' (s : State) (p : Word) : (s.readAt p).e' = s.e' := rfl

@[simp] theorem State.readAt_h' (s : State) (p : Word) : (s.readAt p).h' = s.h' := rfl

@[simp] theorem State.readAt_l' (s : State) (p : Word) : (s.readAt p).l' = s.l' := rfl

@[simp] theorem State.readAt_ix (s : State) (p : Word) : (s.readAt p).ix = s.ix := rfl

@[simp] theorem State.readAt_iy (s : State) (p : Word) : (s.readAt p).iy = s.iy := rfl

@[simp] theorem State.readAt_sp (s : State) (p : Word) : (s.readAt p).sp = s.sp := rfl

@[simp] theorem State.readAt_pc (s : State) (p : Word) : (s.readAt p).pc = s.pc := rfl

@[simp] theorem State.readAt_i (s : State) (p : Word) : (s.readAt p).i = s.i := rfl

@[simp] theorem State.readAt_r (s : State) (p : Word) : (s.readAt p).r = s.r := rfl

@[simp] theorem State.readAt_iff1 (s : State) (p : Word) : (s.readAt p).iff1 = s.iff1 := rfl

@[simp] theorem State.readAt_iff2 (s : State) (p : Word) : (s.readAt p).iff2 = s.iff2 := rfl

@[simp] theorem State.readAt_im (s : State) (p : Word) : (s.readAt p).im = s.im := rfl

@[simp] theorem State.readAt_halted (s : State) (p : Word) : (s.readAt p).halted = s.halted := rfl

@[simp] theorem State.readAt_eiDelay (s : State) (p : Word) : (s.readAt p).eiDelay = s.eiDelay := rfl

@[simp] theorem State.readAt_nmiPending (s : State) (p : Word) : (s.readAt p).nmiPending = s.nmiPending := rfl

@[simp] theorem State.readAt_fault (s : State) (p : Word) : (s.readAt p).fault = s.fault := rfl

@[simp] theorem State.readAt_intLine (s : State) (p : Word) : (s.readAt p).intLine = s.intLine := rfl

@[simp] theorem State.readAt_busByte (s : State) (p : Word) : (s.readAt p).busByte = s.busByte := rfl

@[simp] theorem State.readAt_mem (s : State) (p : Word) : (s.readAt p).mem = s.mem := rfl

@[simp] theorem State.readAt_bus (s : State) (p : Word) :
    (s.readAt p).bus = s.bus ++ [{ kind := .mr, addr := p, data := s.byteAt p }] :=
  rfl

@[simp] theorem State.readAt_tstates (s : State) (p : Word) : (s.readAt p).tstates = s.tstates := rfl

@[simp] theorem State.readAt_draws (s : State) (p : Word) : (s.readAt p).draws = s.draws := rfl

@[simp] theorem State.readAt_params (s : State) (p : Word) : (s.readAt p).params = s.params := rfl

/-! ### writeAt -/

@[simp] theorem State.writeAt_a (s : State) (p : Word) (v : Byte) : (s.writeAt p v).a = s.a := rfl

@[simp] theorem State.writeAt_f (s : State) (p : Word) (v : Byte) : (s.writeAt p v).f = s.f := rfl

@[simp] theorem State.writeAt_b (s : State) (p : Word) (v : Byte) : (s.writeAt p v).b = s.b := rfl

@[simp] theorem State.writeAt_c (s : State) (p : Word) (v : Byte) : (s.writeAt p v).c = s.c := rfl

@[simp] theorem State.writeAt_d (s : State) (p : Word) (v : Byte) : (s.writeAt p v).d = s.d := rfl

@[simp] theorem State.writeAt_e (s : State) (p : Word) (v : Byte) : (s.writeAt p v).e = s.e := rfl

@[simp] theorem State.writeAt_h (s : State) (p : Word) (v : Byte) : (s.writeAt p v).h = s.h := rfl

@[simp] theorem State.writeAt_l (s : State) (p : Word) (v : Byte) : (s.writeAt p v).l = s.l := rfl

@[simp] theorem State.writeAt_a' (s : State) (p : Word) (v : Byte) : (s.writeAt p v).a' = s.a' := rfl

@[simp] theorem State.writeAt_f' (s : State) (p : Word) (v : Byte) : (s.writeAt p v).f' = s.f' := rfl

@[simp] theorem State.writeAt_b' (s : State) (p : Word) (v : Byte) : (s.writeAt p v).b' = s.b' := rfl

@[simp] theorem State.writeAt_c' (s : State) (p : Word) (v : Byte) : (s.writeAt p v).c' = s.c' := rfl

@[simp] theorem State.writeAt_d' (s : State) (p : Word) (v : Byte) : (s.writeAt p v).d' = s.d' := rfl

@[simp] theorem State.writeAt_e' (s : State) (p : Word) (v : Byte) : (s.writeAt p v).e' = s.e' := rfl

@[simp] theorem State.writeAt_h' (s : State) (p : Word) (v : Byte) : (s.writeAt p v).h' = s.h' := rfl

@[simp] theorem State.writeAt_l' (s : State) (p : Word) (v : Byte) : (s.writeAt p v).l' = s.l' := rfl

@[simp] theorem State.writeAt_ix (s : State) (p : Word) (v : Byte) : (s.writeAt p v).ix = s.ix := rfl

@[simp] theorem State.writeAt_iy (s : State) (p : Word) (v : Byte) : (s.writeAt p v).iy = s.iy := rfl

@[simp] theorem State.writeAt_sp (s : State) (p : Word) (v : Byte) : (s.writeAt p v).sp = s.sp := rfl

@[simp] theorem State.writeAt_pc (s : State) (p : Word) (v : Byte) : (s.writeAt p v).pc = s.pc := rfl

@[simp] theorem State.writeAt_i (s : State) (p : Word) (v : Byte) : (s.writeAt p v).i = s.i := rfl

@[simp] theorem State.writeAt_r (s : State) (p : Word) (v : Byte) : (s.writeAt p v).r = s.r := rfl

@[simp] theorem State.writeAt_iff1 (s : State) (p : Word) (v : Byte) : (s.writeAt p v).iff1 = s.iff1 := rfl

@[simp] theorem State.writeAt_iff2 (s : State) (p : Word) (v : Byte) : (s.writeAt p v).iff2 = s.iff2 := rfl

@[simp] theorem State.writeAt_im (s : State) (p : Word) (v : Byte) : (s.writeAt p v).im = s.im := rfl

@[simp] theorem State.writeAt_halted (s : State) (p : Word) (v : Byte) : (s.writeAt p v).halted = s.halted := rfl

@[simp] theorem State.writeAt_eiDelay (s : State) (p : Word) (v : Byte) : (s.writeAt p v).eiDelay = s.eiDelay := rfl

@[simp] theorem State.writeAt_nmiPending (s : State) (p : Word) (v : Byte) :
    (s.writeAt p v).nmiPending = s.nmiPending :=
  rfl

@[simp] theorem State.writeAt_fault (s : State) (p : Word) (v : Byte) : (s.writeAt p v).fault = s.fault := rfl

@[simp] theorem State.writeAt_intLine (s : State) (p : Word) (v : Byte) : (s.writeAt p v).intLine = s.intLine := rfl

@[simp] theorem State.writeAt_busByte (s : State) (p : Word) (v : Byte) : (s.writeAt p v).busByte = s.busByte := rfl

@[simp] theorem State.writeAt_mem (s : State) (p : Word) (v : Byte) :
    (s.writeAt p v).mem = memSet s.mem p.toNat v :=
  rfl

@[simp] theorem State.writeAt_bus (s : State) (p : Word) (v : Byte) :
    (s.writeAt p v).bus = s.bus ++ [{ kind := .mw, addr := p, data := v }] :=
  rfl

@[simp] theorem State.writeAt_tstates (s : State) (p : Word) (v : Byte) : (s.writeAt p v).tstates = s.tstates := rfl

@[simp] theorem State.writeAt_draws (s : State) (p : Word) (v : Byte) : (s.writeAt p v).draws = s.draws := rfl

@[simp] theorem State.writeAt_params (s : State) (p : Word) (v : Byte) : (s.writeAt p v).params = s.params := rfl

/-! ### readWordAt -/

@[simp] theorem State.readWordAt_a (s : State) (p : Word) : (s.readWordAt p).a = s.a := rfl

@[simp] theorem State.readWordAt_f (s : State) (p : Word) : (s.readWordAt p).f = s.f := rfl

@[simp] theorem State.readWordAt_b (s : State) (p : Word) : (s.readWordAt p).b = s.b := rfl

@[simp] theorem State.readWordAt_c (s : State) (p : Word) : (s.readWordAt p).c = s.c := rfl

@[simp] theorem State.readWordAt_d (s : State) (p : Word) : (s.readWordAt p).d = s.d := rfl

@[simp] theorem State.readWordAt_e (s : State) (p : Word) : (s.readWordAt p).e = s.e := rfl

@[simp] theorem State.readWordAt_h (s : State) (p : Word) : (s.readWordAt p).h = s.h := rfl

@[simp] theorem State.readWordAt_l (s : State) (p : Word) : (s.readWordAt p).l = s.l := rfl

@[simp] theorem State.readWordAt_a' (s : State) (p : Word) : (s.readWordAt p).a' = s.a' := rfl

@[simp] theorem State.readWordAt_f' (s : State) (p : Word) : (s.readWordAt p).f' = s.f' := rfl

@[simp] theorem State.readWordAt_b' (s : State) (p : Word) : (s.readWordAt p).b' = s.b' := rfl

@[simp] theorem State.readWordAt_c' (s : State) (p : Word) : (s.readWordAt p).c' = s.c' := rfl

@[simp] theorem State.readWordAt_d' (s : State) (p : Word) : (s.readWordAt p).d' = s.d' := rfl

@[simp] theorem State.readWordAt_e' (s : State) (p : Word) : (s.readWordAt p).e' = s.e' := rfl

@[simp] theorem State.readWordAt_h' (s : State) (p : Word) : (s.readWordAt p).h' = s.h' := rfl

@[simp] theorem State.readWordAt_l' (s : State) (p : Word) : (s.readWordAt p).l' = s.l' := rfl

@[simp] theorem State.readWordAt_ix (s : State) (p : Word) : (s.readWordAt p).ix = s.ix := rfl

@[simp] theorem State.readWordAt_iy (s : State) (p : Word) : (s.readWordAt p).iy = s.iy := rfl

@[simp] theorem State.readWordAt_sp (s : State) (p : Word) : (s.readWordAt p).sp = s.sp := rfl

@[simp] theorem State.readWordAt_pc (s : State) (p : Word) : (s.readWordAt p).pc = s.pc := rfl

@[simp] theorem State.readWordAt_i (s : State) (p : Word) : (s.readWordAt p).i = s.i := rfl

@[simp] theorem State.readWordAt_r (s : State) (p : Word) : (s.readWordAt p).r = s.r := rfl

@[simp] theorem State.readWordAt_iff1 (s : State) (p : Word) : (s.readWordAt p).iff1 = s.iff1 := rfl

@[simp] theorem State.readWordAt_iff2 (s : State) (p : Word) : (s.readWordAt p).iff2 = s.iff2 := rfl

@[simp] theorem State.readWordAt_im (s : State) (p : Word) : (s.readWordAt p).im = s.im := rfl

@[simp] theorem State.readWordAt_halted (s : State) (p : Word) : (s.readWordAt p).halted = s.halted := rfl

@[simp] theorem State.readWordAt_eiDelay (s : State) (p : Word) : (s.readWordAt p).eiDelay = s.eiDelay := rfl

@[simp] theorem State.readWordAt_nmiPending (s : State) (p : Word) : (s.readWordAt p).nmiPending = s.nmiPending :=
  rfl

@[simp] theorem State.readWordAt_fault (s : State) (p : Word) : (s.readWordAt p).fault = s.fault := rfl

@[simp] theorem State.readWordAt_intLine (s : State) (p : Word) : (s.readWordAt p).intLine = s.intLine := rfl

@[simp] theorem State.readWordAt_busByte (s : State) (p : Word) : (s.readWordAt p).busByte = s.busByte := rfl

@[simp] theorem State.readWordAt_mem (s : State) (p : Word) : (s.readWordAt p).mem = s.mem := rfl

@[simp] theorem State.readWordAt_bus (s : State) (p : Word) :
    (s.readWordAt p).bus = s.bus ++ [{ kind := .mr, addr := p, data := s.byteAt p }] ++ [{ kind := .mr, addr := p + 1, data := s.byteAt (p + 1) }] :=
  rfl

@[simp] theorem State.readWordAt_tstates (s : State) (p : Word) : (s.readWordAt p).tstates = s.tstates := rfl

@[simp] theorem State.readWordAt_draws (s : State) (p : Word) : (s.readWordAt p).draws = s.draws := rfl

@[simp] theorem State.readWordAt_params (s : State) (p : Word) : (s.readWordAt p).params = s.params := rfl

/-! ### took -/

@[simp] theorem State.took_a (s : State) (n : Nat) : (s.took n).a = s.a := rfl

@[simp] theorem State.took_f (s : State) (n : Nat) : (s.took n).f = s.f := rfl

@[simp] theorem State.took_b (s : State) (n : Nat) : (s.took n).b = s.b := rfl

@[simp] theorem State.took_c (s : State) (n : Nat) : (s.took n).c = s.c := rfl

@[simp] theorem State.took_d (s : State) (n : Nat) : (s.took n).d = s.d := rfl

@[simp] theorem State.took_e (s : State) (n : Nat) : (s.took n).e = s.e := rfl

@[simp] theorem State.took_h (s : State) (n : Nat) : (s.took n).h = s.h := rfl

@[simp] theorem State.took_l (s : State) (n : Nat) : (s.took n).l = s.l := rfl

@[simp] theorem State.took_a' (s : State) (n : Nat) : (s.took n).a' = s.a' := rfl

@[simp] theorem State.took_f' (s : State) (n : Nat) : (s.took n).f' = s.f' := rfl

@[simp] theorem State.took_b' (s : State) (n : Nat) : (s.took n).b' = s.b' := rfl

@[simp] theorem State.took_c' (s : State) (n : Nat) : (s.took n).c' = s.c' := rfl

@[simp] theorem State.took_d' (s : State) (n : Nat) : (s.took n).d' = s.d' := rfl

@[simp] theorem State.took_e' (s : State) (n : Nat) : (s.took n).e' = s.e' := rfl

@[simp] theorem State.took_h' (s : State) (n : Nat) : (s.took n).h' = s.h' := rfl

@[simp] theorem State.took_l' (s : State) (n : Nat) : (s.took n).l' = s.l' := rfl

@[simp] theorem State.took_ix (s : State) (n : Nat) : (s.took n).ix = s.ix := rfl

@[simp] theorem State.took_iy (s : State) (n : Nat) : (s.took n).iy = s.iy := rfl

@[simp] theorem State.took_sp (s : State) (n : Nat) : (s.took n).sp = s.sp := rfl

@[simp] theorem State.took_pc (s : State) (n : Nat) : (s.took n).pc = s.pc := rfl

@[simp] theorem State.took_i (s : State) (n : Nat) : (s.took n).i = s.i := rfl

@[simp] theorem State.took_r (s : State) (n : Nat) : (s.took n).r = s.r := rfl

@[simp] theorem State.took_iff1 (s : State) (n : Nat) : (s.took n).iff1 = s.iff1 := rfl

@[simp] theorem State.took_iff2 (s : State) (n : Nat) : (s.took n).iff2 = s.iff2 := rfl

@[simp] theorem State.took_im (s : State) (n : Nat) : (s.took n).im = s.im := rfl

@[simp] theorem State.took_halted (s : State) (n : Nat) : (s.took n).halted = s.halted := rfl

@[simp] theorem State.took_eiDelay (s : State) (n : Nat) : (s.took n).eiDelay = s.eiDelay := rfl

@[simp] theorem State.took_nmiPending (s : State) (n : Nat) : (s.took n).nmiPending = s.nmiPending := rfl

@[simp] theorem State.took_fault (s : State) (n : Nat) : (s.took n).fault = s.fault := rfl

@[simp] theorem State.took_intLine (s : State) (n : Nat) : (s.took n).intLine = s.intLine := rfl

@[simp] theorem State.took_busByte (s : State) (n : Nat) : (s.took n).busByte = s.busByte := rfl

@[simp] theorem State.took_mem (s : State) (n : Nat) : (s.took n).mem = s.mem := rfl

@[simp] theorem State.took_bus (s : State) (n : Nat) : (s.took n).bus = s.bus := rfl

@[simp] theorem State.took_tstates (s : State) (n : Nat) : (s.took n).tstates = some n := rfl

@[simp] theorem State.took_draws (s : State) (n : Nat) : (s.took n).draws = s.draws := rfl

@[simp] theorem State.took_params (s : State) (n : Nat) : (s.took n).params = s.params := rfl

/-! ### setF -/

@[simp] theorem State.setF_a (s : State) (v : Byte) : (s.setF v).a = s.a := rfl

@[simp] theorem State.setF_f (s : State) (v : Byte) : (s.setF v).f = v := rfl

@[simp] theorem State.setF_b (s : State) (v : Byte) : (s.setF v).b = s.b := rfl

@[simp] theorem State.setF_c (s : State) (v : Byte) : (s.setF v).c = s.c := rfl

@[simp] theorem State.setF_d (s : State) (v : Byte) : (s.setF v).d = s.d := rfl

@[simp] theorem State.setF_e (s : State) (v : Byte) : (s.setF v).e = s.e := rfl

@[simp] theorem State.setF_h (s : State) (v : Byte) : (s.setF v).h = s.h := rfl

@[simp] theorem State.setF_l (s : State) (v : Byte) : (s.setF v).l = s.l := rfl

@[simp] theorem State.setF_a' (s : State) (v : Byte) : (s.setF v).a' = s.a' := rfl

@[simp] theorem State.setF_f' (s : State) (v : Byte) : (s.setF v).f' = s.f' := rfl

@[simp] theorem State.setF_b' (s : State) (v : Byte) : (s.setF v).b' = s.b' := rfl

@[simp] theorem State.setF_c' (s : State) (v : Byte) : (s.setF v).c' = s.c' := rfl

@[simp] theorem State.setF_d' (s : State) (v : Byte) : (s.setF v).d' = s.d' := rfl

@[simp] theorem State.setF_e' (s : State) (v : Byte) : (s.setF v).e' = s.e' := rfl

@[simp] theorem State.setF_h' (s : State) (v : Byte) : (s.setF v).h' = s.h' := rfl

@[simp] theorem State.setF_l' (s : State) (v : Byte) : (s.setF v).l' = s.l' := rfl

@[simp] theorem State.setF_ix (s : State) (v : Byte) : (s.setF v).ix = s.ix := rfl

@[simp] theorem State.setF_iy (s : State) (v : Byte) : (s.setF v).iy = s.iy := rfl

@[simp] theorem State.setF_sp (s : State) (v : Byte) : (s.setF v).sp = s.sp := rfl

@[simp] theorem State.setF_pc (s : State) (v : Byte) : (s.setF v).pc = s.pc := rfl

@[simp] theorem State.setF_i (s : State) (v : Byte) : (s.setF v).i = s.i := rfl

@[simp] theorem State.setF_r (s : State) (v : Byte) : (s.setF v).r = s.r := rfl

@[simp] theorem State.setF_iff1 (s : State) (v : Byte) : (s.setF v).iff1 = s.iff1 := rfl

@[simp] theorem State.setF_iff2 (s : State) (v : Byte) : (s.setF v).iff2 = s.iff2 := rfl

@[simp] theorem State.setF_im (s : State) (v : Byte) : (s.setF v).im = s.im := rfl

@[simp] theorem State.setF_halted (s : State) (v : Byte) : (s.setF v).halted = s.halted := rfl

@[simp] theorem State.setF_eiDelay (s : State) (v : Byte) : (s.setF v).eiDelay = s.eiDelay := rfl

@[simp] theorem State.setF_nmiPending (s : State) (v : Byte) : (s.setF v).nmiPending = s.nmiPending := rfl

@[simp] theorem State.setF_fault (s : State) (v : Byte) : (s.setF v).fault = s.fault := rfl

@[simp] theorem State.setF_intLine (s : State) (v : Byte) : (s.setF v).intLine = s.intLine := rfl

@[simp] theorem State.setF_busByte (s : State) (v : Byte) : (s.setF v).busByte = s.busByte := rfl

@[simp] theorem State.setF_mem (s : State) (v : Byte) : (s.setF v).mem = s.mem := rfl

@[simp] theorem State.setF_bus (s : State) (v : Byte) : (s.setF v).bus = s.bus := rfl

@[simp] theorem State.setF_tstates (s : State) (v : Byte) : (s.setF v).tstates = s.tstates := rfl

@[simp] theorem State.setF_draws (s : State) (v : Byte) : (s.setF v).draws = s.draws := rfl

@[simp] theorem State.setF_params (s : State) (v : Byte) : (s.setF v).params = s.params := rfl

/-! ### rInc -/

@[simp] theorem State.rInc_a (s : State) : (s.rInc).a = s.a := rfl

@[simp] theorem State.rInc_f (s : State) : (s.rInc).f = s.f := rfl

@[simp] theorem State.rInc_b (s : State) : (s.rInc).b = s.b := rfl

@[simp] theorem State.rInc_c (s : State) : (s.rInc).c = s.c := rfl

@[simp] theorem State.rInc_d (s : State) : (s.rInc).d = s.d := rfl

@[simp] theorem State.rInc_e (s : State) : (s.rInc).e = s.e := rfl

@[simp] theorem State.rInc_h (s : State) : (s.rInc).h = s.h := rfl

@[simp] theorem State.rInc_l (s : State) : (s.rInc).l = s.l := rfl

@[simp] theorem State.rInc_a' (s : State) : (s.rInc).a' = s.a' := rfl

@[simp] theorem State.rInc_f' (s : State) : (s.rInc).f' = s.f' := rfl

@[simp] theorem State.rInc_b' (s : State) : (s.rInc).b' = s.b' := rfl

@[simp] theorem State.rInc_c' (s : State) : (s.rInc).c' = s.c' := rfl

@[simp] theorem State.rInc_d' (s : State) : (s.rInc).d' = s.d' := rfl

@[simp] theorem State.rInc_e' (s : State) : (s.rInc).e' = s.e' := rfl

@[simp] theorem State.rInc_h' (s : State) : (s.rInc).h' = s.h' := rfl

@[simp] theorem State.rInc_l' (s : State) : (s.rInc).l' = s.l' := rfl

@[simp] theorem State.rInc_ix (s : State) : (s.rInc).ix = s.ix := rfl

@[simp] theorem State.rInc_iy (s : State) : (s.rInc).iy = s.iy := rfl

@[simp] theorem State.rInc_sp (s : State) : (s.rInc).sp = s.sp := rfl

@[simp] theorem State.rInc_pc (s : State) : (s.rInc).pc = s.pc := rfl

@[simp] theorem State.rInc_i (s : State) : (s.rInc).i = s.i := rfl

@[simp] theorem State.rInc_r (s : State) : (s.rInc).r = (s.r &&& 0x80) ||| ((s.r + 1) &&& 0x7F) := rfl

@[simp] theorem State.rInc_iff1 (s : State) : (s.rInc).iff1 = s.iff1 := rfl

@[simp] theorem State.rInc_iff2 (s : State) : (s.rInc).iff2 = s.iff2 := rfl

@[simp] theorem State.rInc_im (s : State) : (s.rInc).im = s.im := rfl

@[simp] theorem State.rInc_halted (s : State) : (s.rInc).halted = s.halted := rfl

@[simp] theorem State.rInc_eiDelay (s : State) : (s.rInc).eiDelay = s.eiDelay := rfl

@[simp] theorem State.rInc_nmiPending (s : State) : (s.rInc).nmiPending = s.nmiPending := rfl

@[simp] theorem State.rInc_fault (s : State) : (s.rInc).fault = s.fault := rfl

@[simp] theorem State.rInc_intLine (s : State) : (s.rInc).intLine = s.intLine := rfl

@[simp] theorem State.rInc_busByte (s : State) : (s.rInc).busByte = s.busByte := rfl

@[simp] theorem State.rInc_mem (s : State) : (s.rInc).mem = s.mem := rfl

@[simp] theorem State.rInc_bus (s : State) : (s.rInc).bus = s.bus := rfl

@[simp] theorem State.rInc_tstates (s : State) : (s.rInc).tstates = s.tstates := rfl

@[simp] theorem State.rInc_draws (s : State) : (s.rInc).draws = s.draws := rfl

@[simp] theorem State.rInc_params (s : State) : (s.rInc).params = s.params := rfl

/-! ### setBc -/

@[simp] theorem State.setBc_a (s : State) (v : Word) : (s.setBc v).a = s.a := rfl

@[simp] theorem State.setBc_f (s : State) (v : Word) : (s.setBc v).f = s.f := rfl

@[simp] theorem State.setBc_b (s : State) (v : Word) : (s.setBc v).b = hiByte v := rfl

@[simp] theorem State.setBc_c (s : State) (v : Word) : (s.setBc v).c = loByte v := rfl

@[simp] theorem State.setBc_d (s : State) (v : Word) : (s.setBc v).d = s.d := rfl

@[simp] theorem State.setBc_e (s : State) (v : Word) : (s.setBc v).e = s.e := rfl

@[simp] theorem State.setBc_h (s : State) (v : Word) : (s.setBc v).h = s.h := rfl

@[simp] theorem State.setBc_l (s : State) (v : Word) : (s.setBc v).l = s.l := rfl

@[simp] theorem State.setBc_a' (s : State) (v : Word) : (s.setBc v).a' = s.a' := rfl

@[simp] theorem State.setBc_f' (s : State) (v : Word) : (s.setBc v).f' = s.f' := rfl

@[simp] theorem State.setBc_b' (s : State) (v : Word) : (s.setBc v).b' = s.b' := rfl

@[simp] theorem State.setBc_c' (s : State) (v : Word) : (s.setBc v).c' = s.c' := rfl

@[simp] theorem State.setBc_d' (s : State) (v : Word) : (s.setBc v).d' = s.d' := rfl

@[simp] theorem State.setBc_e' (s : State) (v : Word) : (s.setBc v).e' = s.e' := rfl

@[simp] theorem State.setBc_h' (s : State) (v : Word) : (s.setBc v).h' = s.h' := rfl

@[simp] theorem State.setBc_l' (s : State) (v : Word) : (s.setBc v).l' = s.l' := rfl

@[simp] theorem State.setBc_ix (s : State) (v : Word) : (s.setBc v).ix = s.ix := rfl

@[simp] theorem State.setBc_iy (s : State) (v : Word) : (s.setBc v).iy = s.iy := rfl

@[simp] theorem State.setBc_sp (s : State) (v : Word) : (s.setBc v).sp = s.sp := rfl

@[simp] theorem State.setBc_pc (s : State) (v : Word) : (s.setBc v).pc = s.pc := rfl

@[simp] theorem State.setBc_i (s : State) (v : Word) : (s.setBc v).i = s.i := rfl

@[simp] theorem State.setBc_r (s : State) (v : Word) : (s.setBc v).r = s.r := rfl

@[simp] theorem State.setBc_iff1 (s : State) (v : Word) : (s.setBc v).iff1 = s.iff1 := rfl

@[simp] theorem State.setBc_iff2 (s : State) (v : Word) : (s.setBc v).iff2 = s.iff2 := rfl

@[simp] theorem State.setBc_im (s : State) (v : Word) : (s.setBc v).im = s.im := rfl

@[simp] theorem State.setBc_halted (s : State) (v : Word) : (s.setBc v).halted = s.halted := rfl

@[simp] theorem State.setBc_eiDelay (s : State) (v : Word) : (s.setBc v).eiDelay = s.eiDelay := rfl

@[simp] theorem State.setBc_nmiPending (s : State) (v : Word) : (s.setBc v).nmiPending = s.nmiPending := rfl

@[simp] theorem State.setBc_fault (s : State) (v : Word) : (s.setBc v).fault = s.fault := rfl

@[simp] theorem State.setBc_intLine (s : State) (v : Word) : (s.setBc v).intLine = s.intLine := rfl

@[simp] theorem State.setBc_busByte (s : State) (v : Word) : (s.setBc v).busByte = s.busByte := rfl

@[simp] theorem State.setBc_mem (s : State) (v : Word) : (s.setBc v).mem = s.mem := rfl

@[simp] theorem State.setBc_bus (s : State) (v : Word) : (s.setBc v).bus = s.bus := rfl

@[simp] theorem State.setBc_tstates (s : State) (v : Word) : (s.setBc v).tstates = s.tstates := rfl

@[simp] theorem State.setBc_draws (s : State) (v : Word) : (s.setBc v).draws = s.draws := rfl

@[simp] theorem State.setBc_params (s : State) (v : Word) : (s.setBc v).params = s.params := rfl

/-! ### setDe -/

@[simp] theorem State.setDe_a (s : State) (v : Word) : (s.setDe v).a = s.a := rfl

@[simp] theorem State.setDe_f (s : State) (v : Word) : (s.setDe v).f = s.f := rfl

@[simp] theorem State.setDe_b (s : State) (v : Word) : (s.setDe v).b = s.b := rfl

@[simp] theorem State.setDe_c (s : State) (v : Word) : (s.setDe v).c = s.c := rfl

@[simp] theorem State.setDe_d (s : State) (v : Word) : (s.setDe v).d = hiByte v := rfl

@[simp] theorem State.setDe_e (s : State) (v : Word) : (s.setDe v).e = loByte v := rfl

@[simp] theorem State.setDe_h (s : State) (v : Word) : (s.setDe v).h = s.h := rfl

@[simp] theorem State.setDe_l (s : State) (v : Word) : (s.setDe v).l = s.l := rfl

@[simp] theorem State.setDe_a' (s : State) (v : Word) : (s.setDe v).a' = s.a' := rfl

@[simp] theorem State.setDe_f' (s : State) (v : Word) : (s.setDe v).f' = s.f' := rfl

@[simp] theorem State.setDe_b' (s : State) (v : Word) : (s.setDe v).b' = s.b' := rfl

@[simp] theorem State.setDe_c' (s : State) (v : Word) : (s.setDe v).c' = s.c' := rfl

@[simp] theorem State.setDe_d' (s : State) (v : Word) : (s.setDe v).d' = s.d' := rfl

@[simp] theorem State.setDe_e' (s : State) (v : Word) : (s.setDe v).e' = s.e' := rfl

@[simp] theorem State.setDe_h' (s : State) (v : Word) : (s.setDe v).h' = s.h' := rfl

@[simp] theorem State.setDe_l' (s : State) (v : Word) : (s.setDe v).l' = s.l' := rfl

@[simp] theorem State.setDe_ix (s : State) (v : Word) : (s.setDe v).ix = s.ix := rfl

@[simp] theorem State.setDe_iy (s : State) (v : Word) : (s.setDe v).iy = s.iy := rfl

@[simp] theorem State.setDe_sp (s : State) (v : Word) : (s.setDe v).sp = s.sp := rfl

@[simp] theorem State.setDe_pc (s : State) (v : Word) : (s.setDe v).pc = s.pc := rfl

@[simp] theorem State.setDe_i (s : State) (v : Word) : (s.setDe v).i = s.i := rfl

@[simp] theorem State.setDe_r (s : State) (v : Word) : (s.setDe v).r = s.r := rfl

@[simp] theorem State.setDe_iff1 (s : State) (v : Word) : (s.setDe v).iff1 = s.iff1 := rfl

@[simp] theorem State.setDe_iff2 (s : State) (v : Word) : (s.setDe v).iff2 = s.iff2 := rfl

@[simp] theorem State.setDe_im (s : State) (v : Word) : (s.setDe v).im = s.im := rfl

@[simp] theorem State.setDe_halted (s : State) (v : Word) : (s.setDe v).halted = s.halted := rfl

@[simp] theorem State.setDe_eiDelay (s : State) (v : Word) : (s.setDe v).eiDelay = s.eiDelay := rfl

@[simp] theorem State.setDe_nmiPending (s : State) (v : Word) : (s.setDe v).nmiPending = s.nmiPending := rfl

@[simp] theorem State.setDe_fault (s : State) (v : Word) : (s.setDe v).fault = s.fault := rfl

@[simp] theorem State.setDe_intLine (s : State) (v : Word) : (s.setDe v).intLine = s.intLine := rfl

@[simp] theorem State.setDe_busByte (s : State) (v : Word) : (s.setDe v).busByte = s.busByte := rfl

@[simp] theorem State.setDe_mem (s : State) (v : Word) : (s.setDe v).mem = s.mem := rfl

@[simp] theorem State.setDe_bus (s : State) (v : Word) : (s.setDe v).bus = s.bus := rfl

@[simp] theorem State.setDe_tstates (s : State) (v : Word) : (s.setDe v).tstates = s.tstates := rfl

@[simp] theorem State.setDe_draws (s : State) (v : Word) : (s.setDe v).draws = s.draws := rfl

@[simp] theorem State.setDe_params (s : State) (v : Word) : (s.setDe v).params = s.params := rfl

/-! ### setHl -/

@[simp] theorem State.setHl_a (s : State) (v : Word) : (s.setHl v).a = s.a := rfl

@[simp] theorem State.setHl_f (s : State) (v : Word) : (s.setHl v).f = s.f := rfl

@[simp] theorem State.setHl_b (s : State) (v : Word) : (s.setHl v).b = s.b := rfl

@[simp] theorem State.setHl_c (s : State) (v : Word) : (s.setHl v).c = s.c := rfl

@[simp] theorem State.setHl_d (s : State) (v : Word) : (s.setHl v).d = s.d := rfl

@[simp] theorem State.setHl_e (s : State) (v : Word) : (s.setHl v).e = s.e := rfl

@[simp] theorem State.setHl_h (s : State) (v : Word) : (s.setHl v).h = hiByte v := rfl

@[simp] theorem State.setHl_l (s : State) (v : Word) : (s.setHl v).l = loByte v := rfl

@[simp] theorem State.setHl_a' (s : State) (v : Word) : (s.setHl v).a' = s.a' := rfl

@[simp] theorem State.setHl_f' (s : State) (v : Word) : (s.setHl v).f' = s.f' := rfl

@[simp] theorem State.setHl_b' (s : State) (v : Word) : (s.setHl v).b' = s.b' := rfl

@[simp] theorem State.setHl_c' (s : State) (v : Word) : (s.setHl v).c' = s.c' := rfl

@[simp] theorem State.setHl_d' (s : State) (v : Word) : (s.setHl v).d' = s.d' := rfl

@[simp] theorem State.setHl_e' (s : State) (v : Word) : (s.setHl v).e' = s.e' := rfl

@[simp] theorem State.setHl_h' (s : State) (v : Word) : (s.setHl v).h' = s.h' := rfl

@[simp] theorem State.setHl_l' (s : State) (v : Word) : (s.setHl v).l' = s.l' := rfl

@[simp] theorem State.setHl_ix (s : State) (v : Word) : (s.setHl v).ix = s.ix := rfl

@[simp] theorem State.setHl_iy (s : State) (v : Word) : (s.setHl v).iy = s.iy := rfl

@[simp] theorem State.setHl_sp (s : State) (v : Word) : (s.setHl v).sp = s.sp := rfl

@[simp] theorem State.setHl_pc (s : State) (v : Word) : (s.setHl v).pc = s.pc := rfl

@[simp] theorem State.setHl_i (s : State) (v : Word) : (s.setHl v).i = s.i := rfl

@[simp] theorem State.setHl_r (s : State) (v : Word) : (s.setHl v).r = s.r := rfl

@[simp] theorem State.setHl_iff1 (s : State) (v : Word) : (s.setHl v).iff1 = s.iff1 := rfl

@[simp] theorem State.setHl_iff2 (s : State) (v : Word) : (s.setHl v).iff2 = s.iff2 := rfl

@[simp] theorem State.setHl_im (s : State) (v : Word) : (s.setHl v).im = s.im := rfl

@[simp] theorem State.setHl_halted (s : State) (v : Word) : (s.setHl v).halted = s.halted := rfl

@[simp] theorem State.setHl_eiDelay (s : State) (v : Word) : (s.setHl v).eiDelay = s.eiDelay := rfl

@[simp] theorem State.setHl_nmiPending (s : State) (v : Word) : (s.setHl v).nmiPending = s.nmiPending := rfl

@[simp] theorem State.setHl_fault (s : State) (v : Word) : (s.setHl v).fault = s.fault := rfl

@[simp] theorem State.setHl_intLine (s : State) (v : Word) : (s.setHl v).intLine = s.intLine := rfl

@[simp] theorem State.setHl_busByte (s : State) (v : Word) : (s.setHl v).busByte = s.busByte := rfl

@[simp] theorem State.setHl_mem (s : State) (v : Word) : (s.setHl v).mem = s.mem := rfl

@[simp] theorem State.setHl_bus (s : State) (v : Word) : (s.setHl v).bus = s.bus := rfl

@[simp] theorem State.setHl_tstates (s : State) (v : Word) : (s.setHl v).tstates = s.tstates := rfl

@[simp] theorem State.setHl_draws (s : State) (v : Word) : (s.setHl v).draws = s.draws := rfl

@[simp] theorem State.setHl_params (s : State) (v : Word) : (s.setHl v).params = s.params := rfl

/-! ### setAf -/

@[simp] theorem State.setAf_a (s : State) (v : Word) : (s.setAf v).a = hiByte v := rfl

@[simp] theorem State.setAf_f (s : State) (v : Word) : (s.setAf v).f = loByte v := rfl

@[simp] theorem State.setAf_b (s : State) (v : Word) : (s.setAf v).b = s.b := rfl

@[simp] theorem State.setAf_c (s : State) (v : Word) : (s.setAf v).c = s.c := rfl

@[simp] theorem State.setAf_d (s : State) (v : Word) : (s.setAf v).d = s.d := rfl

@[simp] theorem State.setAf_e (s : State) (v : Word) : (s.setAf v).e = s.e := rfl

@[simp] theorem State.setAf_h (s : State) (v : Word) : (s.setAf v).h = s.h := rfl

@[simp] theorem State.setAf_l (s : State) (v : Word) : (s.setAf v).l = s.l := rfl

@[simp] theorem State.setAf_a' (s : State) (v : Word) : (s.setAf v).a' = s.a' := rfl

@[simp] theorem State.setAf_f' (s : State) (v : Word) : (s.setAf v).f' = s.f' := rfl

@[simp] theorem State.setAf_b' (s : State) (v : Word) : (s.setAf v).b' = s.b' := rfl

@[simp] theorem State.setAf_c' (s : State) (v : Word) : (s.setAf v).c' = s.c' := rfl

@[simp] theorem State.setAf_d' (s : State) (v : Word) : (s.setAf v).d' = s.d' := rfl

@[simp] theorem State.setAf_e' (s : State) (v : Word) : (s.setAf v).e' = s.e' := rfl

@[simp] theorem State.setAf_h' (s : State) (v : Word) : (s.setAf v).h' = s.h' := rfl

@[simp] theorem State.setAf_l' (s : State) (v : Word) : (s.setAf v).l' = s.l' := rfl

@[simp] theorem State.setAf_ix (s : State) (v : Word) : (s.setAf v).ix = s.ix := rfl

@[simp] theorem State.setAf_iy (s : State) (v : Word) : (s.setAf v).iy = s.iy := rfl

@[simp] theorem State.setAf_sp (s : State) (v : Word) : (s.setAf v).sp = s.sp := rfl

@[simp] theorem State.setAf_pc (s : State) (v : Word) : (s.setAf v).pc = s.pc := rfl

@[simp] theorem State.setAf_i (s : State) (v : Word) : (s.setAf v).i = s.i := rfl

@[simp] theorem State.setAf_r (s : State) (v : Word) : (s.setAf v).r = s.r := rfl

@[simp] theorem State.setAf_iff1 (s : State) (v : Word) : (s.setAf v).iff1 = s.iff1 := rfl

@[simp] theorem State.setAf_iff2 (s : State) (v : Word) : (s.setAf v).iff2 = s.iff2 := rfl

@[simp] theorem State.setAf_im (s : State) (v : Word) : (s.setAf v).im = s.im := rfl

@[simp] theorem State.setAf_halted (s : State) (v : Word) : (s.setAf v).halted = s.halted := rfl

@[simp] theorem State.setAf_eiDelay (s : State) (v : Word) : (s.setAf v).eiDelay = s.eiDelay := rfl

@[simp] theorem State.setAf_nmiPending (s : State) (v : Word) : (s.setAf v).nmiPending = s.nmiPending := rfl

@[simp] theorem State.setAf_fault (s : State) (v : Word) : (s.setAf v).fault = s.fault := rfl

@[simp] theorem State.setAf_intLine (s : State) (v : Word) : (s.setAf v).intLine = s.intLine := rfl

@[simp] theorem State.setAf_busByte (s : State) (v : Word) : (s.setAf v).busByte = s.busByte := rfl

@[simp] theorem State.setAf_mem (s : State) (v : Word) : (s.setAf v).mem = s.mem := rfl

@[simp] theorem State.setAf_bus (s : State) (v : Word) : (s.setAf v).bus = s.bus := rfl

@[simp] theorem State.setAf_tstates (s : State) (v : Word) : (s.setAf v).tstates = s.tstates := rfl

@[simp] theorem State.setAf_draws (s : State) (v : Word) : (s.setAf v).draws = s.draws := rfl

@[simp] theorem State.setAf_params (s : State) (v : Word) : (s.setAf v).params = s.params := rfl

/-! ### setReg8 -/

@[simp] theorem State.setReg8_a (s : State) (q : Reg8) (v : Byte) :
    (s.setReg8 q v).a = if q = .a then v else s.a :=
  by cases q <;> rfl

@[simp] theorem State.setReg8_f (s : State) (q : Reg8) (v : Byte) : (s.setReg8 q v).f = s.f := by cases q <;> rfl

@[simp] theorem State.setReg8_b (s : State) (q : Reg8) (v : Byte) :
    (s.setReg8 q v).b = if q = .b then v else s.b :=
  by cases q <;> rfl

@[simp] theorem State.setReg8_c (s : State) (q : Reg8) (v : Byte) :
    (s.setReg8 q v).c = if q = .c then v else s.c :=
  by cases q <;> rfl

@[simp] theorem State.setReg8_d (s : State) (q : Reg8) (v : Byte) :
    (s.setReg8 q v).d = if q = .d then v else s.d :=
  by cases q <;> rfl

@[simp] theorem State.setReg8_e (s : State) (q : Reg8) (v : Byte) :
    (s.setReg8 q v).e = if q = .e then v else s.e :=
  by cases q <;> rfl

@[simp] theorem State.setReg8_h (s : State) (q : Reg8) (v : Byte) :
    (s.setReg8 q v).h = if q = .h then v else s.h :=
  by cases q <;> rfl

@[simp] theorem State.setReg8_l (s : State) (q : Reg8) (v : Byte) :
    (s.setReg8 q v).l = if q = .l then v else s.l :=
  by cases q <;> rfl

@[simp] theorem State.setReg8_a' (s : State) (q : Reg8) (v : Byte) : (s.setReg8 q v).a' = s.a' := by cases q <;> rfl

@[simp] theorem State.setReg8_f' (s : State) (q : Reg8) (v : Byte) : (s.setReg8 q v).f' = s.f' := by cases q <;> rfl

@[simp] theorem State.setReg8_b' (s : State) (q : Reg8) (v : Byte) : (s.setReg8 q v).b' = s.b' := by cases q <;> rfl

@[simp] theorem State.setReg8_c' (s : State) (q : Reg8) (v : Byte) : (s.setReg8 q v).c' = s.c' := by cases q <;> rfl

@[simp] theorem State.setReg8_d' (s : State) (q : Reg8) (v : Byte) : (s.setReg8 q v).d' = s.d' := by cases q <;> rfl

@[simp] theorem State.setReg8_e' (s : State) (q : Reg8) (v : Byte) : (s.setReg8 q v).e' = s.e' := by cases q <;> rfl

@[simp] theorem State.setReg8_h' (s : State) (q : Reg8) (v : Byte) : (s.setReg8 q v).h' = s.h' := by cases q <;> rfl

@[simp] theorem State.setReg8_l' (s : State) (q : Reg8) (v : Byte) : (s.setReg8 q v).l' = s.l' := by cases q <;> rfl

@[simp] theorem State.setReg8_ix (s : State) (q : Reg8) (v : Byte) : (s.setReg8 q v).ix = s.ix := by cases q <;> rfl

@[simp] theorem State.setReg8_iy (s : State) (q : Reg8) (v : Byte) : (s.setReg8 q v).iy = s.iy := by cases q <;> rfl

@[simp] theorem State.setReg8_sp (s : State) (q : Reg8) (v : Byte) : (s.setReg8 q v).sp = s.sp := by cases q <;> rfl

@[simp] theorem State.setReg8_pc (s : State) (q : Reg8) (v : Byte) : (s.setReg8 q v).pc = s.pc := by cases q <;> rfl

@[simp] theorem State.setReg8_i (s : State) (q : Reg8) (v : Byte) : (s.setReg8 q v).i = s.i := by cases q <;> rfl

@[simp] theorem State.setReg8_r (s : State) (q : Reg8) (v : Byte) : (s.setReg8 q v).r = s.r := by cases q <;> rfl

@[simp] theorem State.setReg8_iff1 (s : State) (q : Reg8) (v : Byte) : (s.setReg8 q v).iff1 = s.iff1 :=
  by cases q <;> rfl

@[simp] theorem State.setReg8_iff2 (s : State) (q : Reg8) (v : Byte) : (s.setReg8 q v).iff2 = s.iff2 :=
  by cases q <;> rfl

@[simp] theorem State.setReg8_im (s : State) (q : Reg8) (v : Byte) : (s.setReg8 q v).im = s.im := by cases q <;> rfl

@[simp] theorem State.setReg8_halted (s : State) (q : Reg8) (v : Byte) : (s.setReg8 q v).halted = s.halted :=
  by cases q <;> rfl

@[simp] theorem State.setReg8_eiDelay (s : State) (q : Reg8) (v : Byte) : (s.setReg8 q v).eiDelay = s.eiDelay :=
  by cases q <;> rfl

@[simp] theorem State.setReg8_nmiPending (s : State) (q : Reg8) (v : Byte) :
    (s.setReg8 q v).nmiPending = s.nmiPending :=
  by cases q <;> rfl

@[simp] theorem State.setReg8_fault (s : State) (q : Reg8) (v : Byte) : (s.setReg8 q v).fault = s.fault :=
  by cases q <;> rfl

@[simp] theorem State.setReg8_intLine (s : State) (q : Reg8) (v : Byte) : (s.setReg8 q v).intLine = s.intLine :=
  by cases q <;> rfl

@[simp] theorem State.setReg8_busByte (s : State) (q : Reg8) (v : Byte) : (s.setReg8 q v).busByte = s.busByte :=
  by cases q <;> rfl

@[simp] theorem State.setReg8_mem (s : State) (q : Reg8) (v : Byte) : (s.setReg8 q v).mem = s.mem :=
  by cases q <;> rfl

@[simp] theorem State.setReg8_bus (s : State) (q : Reg8) (v : Byte) : (s.setReg8 q v).bus = s.bus :=
  by cases q <;> rfl

@[simp] theorem State.setReg8_tstates (s : State) (q : Reg8) (v : Byte) : (s.setReg8 q v).tstates = s.tstates :=
  by cases q <;> rfl

@[simp] theorem State.setReg8_draws (s : State) (q : Reg8) (v : Byte) : (s.setReg8 q v).draws = s.draws :=
  by cases q <;> rfl

@[simp] theorem State.setReg8_params (s : State) (q : Reg8) (v : Byte) : (s.setReg8 q v).params = s.params :=
  by cases q <;> rfl

/-! ### setPair -/

@[simp] theorem State.setPair_a (s : State) (q : Pair) (v : Word) : (s.setPair q v).a = s.a := by cases q <;> rfl

@[simp] theorem State.setPair_f (s : State) (q : Pair) (v : Word) : (s.setPair q v).f = s.f := by cases q <;> rfl

@[simp] theorem State.setPair_b (s : State) (q : Pair) (v : Word) :
    (s.setPair q v).b = if q = .bc then hiByte v else s.b :=
  by cases q <;> rfl

@[simp] theorem State.setPair_c (s : State) (q : Pair) (v : Word) :
    (s.setPair q v).c = if q = .bc then loByte v else s.c :=
  by cases q <;> rfl

@[simp] theorem State.setPair_d (s : State) (q : Pair) (v : Word) :
    (s.setPair q v).d = if q = .de then hiByte v else s.d :=
  by cases q <;> rfl

@[simp] theorem State.setPair_e (s : State) (q : Pair) (v : Word) :
    (s.setPair q v).e = if q = .de then loByte v else s.e :=
  by cases q <;> rfl

@[simp] theorem State.setPair_h (s : State) (q : Pair) (v : Word) :
    (s.setPair q v).h = if q = .hl then hiByte v else s.h :=
  by cases q <;> rfl

@[simp] theorem State.setPair_l (s : State) (q : Pair) (v : Word) :
    (s.setPair q v).l = if q = .hl then loByte v else s.l :=
  by cases q <;> rfl

@[simp] theorem State.setPair_a' (s : State) (q : Pair) (v : Word) : (s.setPair q v).a' = s.a' := by cases q <;> rfl

@[simp] theorem State.setPair_f' (s : State) (q : Pair) (v : Word) : (s.setPair q v).f' = s.f' := by cases q <;> rfl

@[simp] theorem State.setPair_b' (s : State) (q : Pair) (v : Word) : (s.setPair q v).b' = s.b' := by cases q <;> rfl

@[simp] theorem State.setPair_c' (s : State) (q : Pair) (v : Word) : (s.setPair q v).c' = s.c' := by cases q <;> rfl

@[simp] theorem State.setPair_d' (s : State) (q : Pair) (v : Word) : (s.setPair q v).d' = s.d' := by cases q <;> rfl

@[simp] theorem State.setPair_e' (s : State) (q : Pair) (v : Word) : (s.setPair q v).e' = s.e' := by cases q <;> rfl

@[simp] theorem State.setPair_h' (s : State) (q : Pair) (v : Word) : (s.setPair q v).h' = s.h' := by cases q <;> rfl

@[simp] theorem State.setPair_l' (s : State) (q : Pair) (v : Word) : (s.setPair q v).l' = s.l' := by cases q <;> rfl

@[simp] theorem State.setPair_ix (s : State) (q : Pair) (v : Word) : (s.setPair q v).ix = s.ix := by cases q <;> rfl

@[simp] theorem State.setPair_iy (s : State) (q : Pair) (v : Word) : (s.setPair q v).iy = s.iy := by cases q <;> rfl

@[simp] theorem State.setPair_sp (s : State) (q : Pair) (v : Word) :
    (s.setPair q v).sp = if q = .sp then v else s.sp :=
  by cases q <;> rfl

@[simp] theorem State.setPair_pc (s : State) (q : Pair) (v : Word) : (s.setPair q v).pc = s.pc := by cases q <;> rfl

@[simp] theorem State.setPair_i (s : State) (q : Pair) (v : Word) : (s.setPair q v).i = s.i := by cases q <;> rfl

@[simp] theorem State.setPair_r (s : State) (q : Pair) (v : Word) : (s.setPair q v).r = s.r := by cases q <;> rfl

@[simp] theorem State.setPair_iff1 (s : State) (q : Pair) (v : Word) : (s.setPair q v).iff1 = s.iff1 :=
  by cases q <;> rfl

@[simp] theorem State.setPair_iff2 (s : State) (q : Pair) (v : Word) : (s.setPair q v).iff2 = s.iff2 :=
  by cases q <;> rfl

@[simp] theorem State.setPair_im (s : State) (q : Pair) (v : Word) : (s.setPair q v).im = s.im := by cases q <;> rfl

@[simp] theorem State.setPair_halted (s : State) (q : Pair) (v : Word) : (s.setPair q v).halted = s.halted :=
  by cases q <;> rfl

@[simp] theorem State.setPair_eiDelay (s : State) (q : Pair) (v : Word) : (s.setPair q v).eiDelay = s.eiDelay :=
  by cases q <;> rfl

@[simp] theorem State.setPair_nmiPending (s : State) (q : Pair) (v : Word) :
    (s.setPair q v).nmiPending = s.nmiPending :=
  by cases q <;> rfl

@[simp] theorem State.setPair_fault (s : State) (q : Pair) (v : Word) : (s.setPair q v).fault = s.fault :=
  by cases q <;> rfl

@[simp] theorem State.setPair_intLine (s : State) (q : Pair) (v : Word) : (s.setPair q v).intLine = s.intLine :=
  by cases q <;> rfl

@[simp] theorem State.setPair_busByte (s : State) (q : Pair) (v : Word) : (s.setPair q v).busByte = s.busByte :=
  by cases q <;> rfl

@[simp] theorem State.setPair_mem (s : State) (q : Pair) (v : Word) : (s.setPair q v).mem = s.mem :=
  by cases q <;> rfl

@[simp] theorem State.setPair_bus (s : State) (q : Pair) (v : Word) : (s.setPair q v).bus = s.bus :=
  by cases q <;> rfl

@[simp] theorem State.setPair_tstates (s : State) (q : Pair) (v : Word) : (s.setPair q v).tstates = s.tstates :=
  by cases q <;> rfl

@[simp] theorem State.setPair_draws (s : State) (q : Pair) (v : Word) : (s.setPair q v).draws = s.draws :=
  by cases q <;> rfl

@[simp] theorem State.setPair_params (s : State) (q : Pair) (v : Word) : (s.setPair q v).params = s.params :=
  by cases q <;> rfl

/-! ### setStackPair -/

@[simp] theorem State.setStackPair_a (s : State) (q : StackPair) (v : Word) :
    (s.setStackPair q v).a = if q = .af then hiByte v else s.a :=
  by cases q <;> rfl

@[simp] theorem State.setStackPair_f (s : State) (q : StackPair) (v : Word) :
    (s.setStackPair q v).f = if q = .af then loByte v else s.f :=
  by cases q <;> rfl

@[simp] theorem State.setStackPair_b (s : State) (q : StackPair) (v : Word) :
    (s.setStackPair q v).b = if q = .bc then hiByte v else s.b :=
  by cases q <;> rfl

@[simp] theorem State.setStackPair_c (s : State) (q : StackPair) (v : Word) :
    (s.setStackPair q v).c = if q = .bc then loByte v else s.c :=
  by cases q <;> rfl

@[simp] theorem State.setStackPair_d (s : State) (q : StackPair) (v : Word) :
    (s.setStackPair q v).d = if q = .de then hiByte v else s.d :=
  by cases q <;> rfl

@[simp] theorem State.setStackPair_e (s : State) (q : StackPair) (v : Word) :
    (s.setStackPair q v).e = if q = .de then loByte v else s.e :=
  by cases q <;> rfl

@[simp] theorem State.setStackPair_h (s : State) (q : StackPair) (v : Word) :
    (s.setStackPair q v).h = if q = .hl then hiByte v else s.h :=
  by cases q <;> rfl

@[simp] theorem State.setStackPair_l (s : State) (q : StackPair) (v : Word) :
    (s.setStackPair q v).l = if q = .hl then loByte v else s.l :=
  by cases q <;> rfl

@[simp] theorem State.setStackPair_a' (s : State) (q : StackPair) (v : Word) : (s.setStackPair q v).a' = s.a' :=
  by cases q <;> rfl

@[simp] theorem State.setStackPair_f' (s : State) (q : StackPair) (v : Word) : (s.setStackPair q v).f' = s.f' :=
  by cases q <;> rfl

@[simp] theorem State.setStackPair_b' (s : State) (q : StackPair) (v : Word) : (s.setStackPair q v).b' = s.b' :=
  by cases q <;> rfl

@[simp] theorem State.setStackPair_c' (s : State) (q : StackPair) (v : Word) : (s.setStackPair q v).c' = s.c' :=
  by cases q <;> rfl

@[simp] theorem State.setStackPair_d' (s : State) (q : StackPair) (v : Word) : (s.setStackPair q v).d' = s.d' :=
  by cases q <;> rfl

@[simp] theorem State.setStackPair_e' (s : State) (q : StackPair) (v : Word) : (s.setStackPair q v).e' = s.e' :=
  by cases q <;> rfl

@[simp] theorem State.setStackPair_h' (s : State) (q : StackPair) (v : Word) : (s.setStackPair q v).h' = s.h' :=
  by cases q <;> rfl

@[simp] theorem State.setStackPair_l' (s : State) (q : StackPair) (v : Word) : (s.setStackPair q v).l' = s.l' :=
  by cases q <;> rfl

@[simp] theorem State.setStackPair_ix (s : State) (q : StackPair) (v : Word) : (s.setStackPair q v).ix = s.ix :=
  by cases q <;> rfl

@[simp] theorem State.setStackPair_iy (s : State) (q : StackPair) (v : Word) : (s.setStackPair q v).iy = s.iy :=
  by cases q <;> rfl

@[simp] theorem State.setStackPair_sp (s : State) (q : StackPair) (v : Word) : (s.setStackPair q v).sp = s.sp :=
  by cases q <;> rfl

@[simp] theorem State.setStackPair_pc (s : State) (q : StackPair) (v : Word) : (s.setStackPair q v).pc = s.pc :=
  by cases q <;> rfl

@[simp] theorem State.setStackPair_i (s : State) (q : StackPair) (v : Word) : (s.setStackPair q v).i = s.i :=
  by cases q <;> rfl

@[simp] theorem State.setStackPair_r (s : State) (q : StackPair) (v : Word) : (s.setStackPair q v).r = s.r :=
  by cases q <;> rfl

@[simp] theorem State.setStackPair_iff1 (s : State) (q : StackPair) (v : Word) :
    (s.setStackPair q v).iff1 = s.iff1 :=
  by cases q <;> rfl

@[simp] theorem State.setStackPair_iff2 (s : State) (q : StackPair) (v : Word) :
    (s.setStackPair q v).iff2 = s.iff2 :=
  by cases q <;> rfl

@[simp] theorem State.setStackPair_im (s : State) (q : StackPair) (v : Word) : (s.setStackPair q v).im = s.im :=
  by cases q <;> rfl

@[simp] theorem State.setStackPair_halted (s : State) (q : StackPair) (v : Word) :
    (s.setStackPair q v).halted = s.halted :=
  by cases q <;> rfl

@[simp] theorem State.setStackPair_eiDelay (s : State) (q : StackPair) (v : Word) :
    (s.setStackPair q v).eiDelay = s.eiDelay :=
  by cases q <;> rfl

@[simp] theorem State.setStackPair_nmiPending (s : State) (q : StackPair) (v : Word) :
    (s.setStackPair q v).nmiPending = s.nmiPending :=
  by cases q <;> rfl

@[simp] theorem State.setStackPair_fault (s : State) (q : StackPair) (v : Word) :
    (s.setStackPair q v).fault = s.fault :=
  by cases q <;> rfl

@[simp] theorem State.setStackPair_intLine (s : State) (q : StackPair) (v : Word) :
    (s.setStackPair q v).intLine = s.intLine :=
  by cases q <;> rfl

@[simp] theorem State.setStackPair_busByte (s : State) (q : StackPair) (v : Word) :
    (s.setStackPair q v).busByte = s.busByte :=
  by cases q <;> rfl

@[simp] theorem State.setStackPair_mem (s : State) (q : StackPair) (v : Word) : (s.setStackPair q v).mem = s.mem :=
  by cases q <;> rfl

@[simp] theorem State.setStackPair_bus (s : State) (q : StackPair) (v : Word) : (s.setStackPair q v).bus = s.bus :=
  by cases q <;> rfl

@[simp] theorem State.setStackPair_tstates (s : State) (q : StackPair) (v : Word) :
    (s.setStackPair q v).tstates = s.tstates :=
  by cases q <;> rfl

@[simp] theorem State.setStackPair_draws (s : State) (q : StackPair) (v : Word) :
    (s.setStackPair q v).draws = s.draws :=
  by cases q <;> rfl

@[simp] theorem State.setStackPair_params (s : State) (q : StackPair) (v : Word) :
    (s.setStackPair q v).params = s.params :=
  by cases q <;> rfl

/-! ### setXr -/

@[simp] theorem State.setXr_a (s : State) (q : XR) (v : Word) : (s.setXr q v).a = s.a := by cases q <;> rfl

@[simp] theorem State.setXr_f (s : State) (q : XR) (v : Word) : (s.setXr q v).f = s.f := by cases q <;> rfl

@[simp] theorem State.setXr_b (s : State) (q : XR) (v : Word) : (s.setXr q v).b = s.b := by cases q <;> rfl

@[simp] theorem State.setXr_c (s : State) (q : XR) (v : Word) : (s.setXr q v).c = s.c := by cases q <;> rfl

@[simp] theorem State.setXr_d (s : State) (q : XR) (v : Word) : (s.setXr q v).d = s.d := by cases q <;> rfl

@[simp] theorem State.setXr_e (s : State) (q : XR) (v : Word) : (s.setXr q v).e = s.e := by cases q <;> rfl

@[simp] theorem State.setXr_h (s : State) (q : XR) (v : Word) : (s.setXr q v).h = s.h := by cases q <;> rfl

@[simp] theorem State.setXr_l (s : State) (q : XR) (v : Word) : (s.setXr q v).l = s.l := by cases q <;> rfl

@[simp] theorem State.setXr_a' (s : State) (q : XR) (v : Word) : (s.setXr q v).a' = s.a' := by cases q <;> rfl

@[simp] theorem State.setXr_f' (s : State) (q : XR) (v : Word) : (s.setXr q v).f' = s.f' := by cases q <;> rfl

@[simp] theorem State.setXr_b' (s : State) (q : XR) (v : Word) : (s.setXr q v).b' = s.b' := by cases q <;> rfl

@[simp] theorem State.setXr_c' (s : State) (q : XR) (v : Word) : (s.setXr q v).c' = s.c' := by cases q <;> rfl

@[simp] theorem State.setXr_d' (s : State) (q : XR) (v : Word) : (s.setXr q v).d' = s.d' := by cases q <;> rfl

@[simp] theorem State.setXr_e' (s : State) (q : XR) (v : Word) : (s.setXr q v).e' = s.e' := by cases q <;> rfl

@[simp] theorem State.setXr_h' (s : State) (q : XR) (v : Word) : (s.setXr q v).h' = s.h' := by cases q <;> rfl

@[simp] theorem State.setXr_l' (s : State) (q : XR) (v : Word) : (s.setXr q v).l' = s.l' := by cases q <;> rfl

@[simp] theorem State.setXr_ix (s : State) (q : XR) (v : Word) : (s.setXr q v).ix = if q = .ix then v else s.ix :=
  by cases q <;> rfl

@[simp] theorem State.setXr_iy (s : State) (q : XR) (v : Word) : (s.setXr q v).iy = if q = .iy then v else s.iy :=
  by cases q <;> rfl

@[simp] theorem State.setXr_sp (s : State) (q : XR) (v : Word) : (s.setXr q v).sp = s.sp := by cases q <;> rfl

@[simp] theorem State.setXr_pc (s : State) (q : XR) (v : Word) : (s.setXr q v).pc = s.pc := by cases q <;> rfl

@[simp] theorem State.setXr_i (s : State) (q : XR) (v : Word) : (s.setXr q v).i = s.i := by cases q <;> rfl

@[simp] theorem State.setXr_r (s : State) (q : XR) (v : Word) : (s.setXr q v).r = s.r := by cases q <;> rfl

@[simp] theorem State.setXr_iff1 (s : State) (q : XR) (v : Word) : (s.setXr q v).iff1 = s.iff1 := by cases q <;> rfl

@[simp] theorem State.setXr_iff2 (s : State) (q : XR) (v : Word) : (s.setXr q v).iff2 = s.iff2 := by cases q <;> rfl

@[simp] theorem State.setXr_im (s : State) (q : XR) (v : Word) : (s.setXr q v).im = s.im := by cases q <;> rfl

@[simp] theorem State.setXr_halted (s : State) (q : XR) (v : Word) : (s.setXr q v).halted = s.halted :=
  by cases q <;> rfl

@[simp] theorem State.setXr_eiDelay (s : State) (q : XR) (v : Word) : (s.setXr q v).eiDelay = s.eiDelay :=
  by cases q <;> rfl

@[simp] theorem State.setXr_nmiPending (s : State) (q : XR) (v : Word) : (s.setXr q v).nmiPending = s.nmiPending :=
  by cases q <;> rfl

@[simp] theorem State.setXr_fault (s : State) (q : XR) (v : Word) : (s.setXr q v).fault = s.fault :=
  by cases q <;> rfl

@[simp] theorem State.setXr_intLine (s : State) (q : XR) (v : Word) : (s.setXr q v).intLine = s.intLine :=
  by cases q <;> rfl

@[simp] theorem State.setXr_busByte (s : State) (q : XR) (v : Word) : (s.setXr q v).busByte = s.busByte :=
  by cases q <;> rfl

@[simp] theorem State.setXr_mem (s : State) (q : XR) (v : Word) : (s.setXr q v).mem = s.mem := by cases q <;> rfl

@[simp] theorem State.setXr_bus (s : State) (q : XR) (v : Word) : (s.setXr q v).bus = s.bus := by cases q <;> rfl

@[simp] theorem State.setXr_tstates (s : State) (q : XR) (v : Word) : (s.setXr q v).tstates = s.tstates :=
  by cases q <;> rfl

@[simp] theorem State.setXr_draws (s : State) (q : XR) (v : Word) : (s.setXr q v).draws = s.draws :=
  by cases q <;> rfl

@[simp] theorem State.setXr_params (s : State) (q : XR) (v : Word) : (s.setXr q v).params = s.params :=
  by cases q <;> rfl

/-! ### setXrHalf -/

@[simp] theorem State.setXrHalf_a (s : State) (q : XR) (p : Half) (v : Byte) : (s.setXrHalf q p v).a = s.a :=
  by cases q <;> cases p <;> rfl

@[simp] theorem State.setXrHalf_f (s : State) (q : XR) (p : Half) (v : Byte) : (s.setXrHalf q p v).f = s.f :=
  by cases q <;> cases p <;> rfl

@[simp] theorem State.setXrHalf_b (s : State) (q : XR) (p : Half) (v : Byte) : (s.setXrHalf q p v).b = s.b :=
  by cases q <;> cases p <;> rfl

@[simp] theorem State.setXrHalf_c (s : State) (q : XR) (p : Half) (v : Byte) : (s.setXrHalf q p v).c = s.c :=
  by cases q <;> cases p <;> rfl

@[simp] theorem State.setXrHalf_d (s : State) (q : XR) (p : Half) (v : Byte) : (s.setXrHalf q p v).d = s.d :=
  by cases q <;> cases p <;> rfl

@[simp] theorem State.setXrHalf_e (s : State) (q : XR) (p : Half) (v : Byte) : (s.setXrHalf q p v).e = s.e :=
  by cases q <;> cases p <;> rfl

@[simp] theorem State.setXrHalf_h (s : State) (q : XR) (p : Half) (v : Byte) : (s.setXrHalf q p v).h = s.h :=
  by cases q <;> cases p <;> rfl

@[simp] theorem State.setXrHalf_l (s : State) (q : XR) (p : Half) (v : Byte) : (s.setXrHalf q p v).l = s.l :=
  by cases q <;> cases p <;> rfl

@[simp] theorem State.setXrHalf_a' (s : State) (q : XR) (p : Half) (v : Byte) : (s.setXrHalf q p v).a' = s.a' :=
  by cases q <;> cases p <;> rfl

@[simp] theorem State.setXrHalf_f' (s : State) (q : XR) (p : Half) (v : Byte) : (s.setXrHalf q p v).f' = s.f' :=
  by cases q <;> cases p <;> rfl

@[simp] theorem State.setXrHalf_b' (s : State) (q : XR) (p : Half) (v : Byte) : (s.setXrHalf q p v).b' = s.b' :=
  by cases q <;> cases p <;> rfl

@[simp] theorem State.setXrHalf_c' (s : State) (q : XR) (p : Half) (v : Byte) : (s.setXrHalf q p v).c' = s.c' :=
  by cases q <;> cases p <;> rfl

@[simp] theorem State.setXrHalf_d' (s : State) (q : XR) (p : Half) (v : Byte) : (s.setXrHalf q p v).d' = s.d' :=
  by cases q <;> cases p <;> rfl

@[simp] theorem State.setXrHalf_e' (s : State) (q : XR) (p : Half) (v : Byte) : (s.setXrHalf q p v).e' = s.e' :=
  by cases q <;> cases p <;> rfl

@[simp] theorem State.setXrHalf_h' (s : State) (q : XR) (p : Half) (v : Byte) : (s.setXrHalf q p v).h' = s.h' :=
  by cases q <;> cases p <;> rfl

@[simp] theorem State.setXrHalf_l' (s : State) (q : XR) (p : Half) (v : Byte) : (s.setXrHalf q p v).l' = s.l' :=
  by cases q <;> cases p <;> rfl

@[simp] theorem State.setXrHalf_ix (s : State) (q : XR) (p : Half) (v : Byte) :
    (s.setXrHalf q p v).ix = if q = .ix then (match p with | .hi => mkWord v (loByte s.ix) | .lo => mkWord (hiByte s.ix) v) else s.ix :=
  by cases q <;> cases p <;> rfl

@[simp] theorem State.setXrHalf_iy (s : State) (q : XR) (p : Half) (v : Byte) :
    (s.setXrHalf q p v).iy = if q = .iy then (match p with | .hi => mkWord v (loByte s.iy) | .lo => mkWord (hiByte s.iy) v) else s.iy :=
  by cases q <;> cases p <;> rfl

@[simp] theorem State.setXrHalf_sp (s : State) (q : XR) (p : Half) (v : Byte) : (s.setXrHalf q p v).sp = s.sp :=
  by cases q <;> cases p <;> rfl

@[simp] theorem State.setXrHalf_pc (s : State) (q : XR) (p : Half) (v : Byte) : (s.setXrHalf q p v).pc = s.pc :=
  by cases q <;> cases p <;> rfl

@[simp] theorem State.setXrHalf_i (s : State) (q : XR) (p : Half) (v : Byte) : (s.setXrHalf q p v).i = s.i :=
  by cases q <;> cases p <;> rfl

@[simp] theorem State.setXrHalf_r (s : State) (q : XR) (p : Half) (v : Byte) : (s.setXrHalf q p v).r = s.r :=
  by cases q <;> cases p <;> rfl

@[simp] theorem State.setXrHalf_iff1 (s : State) (q : XR) (p : Half) (v : Byte) :
    (s.setXrHalf q p v).iff1 = s.iff1 :=
  by cases q <;> cases p <;> rfl

@[simp] theorem State.setXrHalf_iff2 (s : State) (q : XR) (p : Half) (v : Byte) :
    (s.setXrHalf q p v).iff2 = s.iff2 :=
  by cases q <;> cases p <;> rfl

@[simp] theorem State.setXrHalf_im (s : State) (q : XR) (p : Half) (v : Byte) : (s.setXrHalf q p v).im = s.im :=
  by cases q <;> cases p <;> rfl

@[simp] theorem State.setXrHalf_halted (s : State) (q : XR) (p : Half) (v : Byte) :
    (s.setXrHalf q p v).halted = s.halted :=
  by cases q <;> cases p <;> rfl

@[simp] theorem State.setXrHalf_eiDelay (s : State) (q : XR) (p : Half) (v : Byte) :
    (s.setXrHalf q p v).eiDelay = s.eiDelay :=
  by cases q <;> cases p <;> rfl

@[simp] theorem State.setXrHalf_nmiPending (s : State) (q : XR) (p : Half) (v : Byte) :
    (s.setXrHalf q p v).nmiPending = s.nmiPending :=
  by cases q <;> cases p <;> rfl

@[simp] theorem State.setXrHalf_fault (s : State) (q : XR) (p : Half) (v : Byte) :
    (s.setXrHalf q p v).fault = s.fault :=
  by cases q <;> cases p <;> rfl

@[simp] theorem State.setXrHalf_intLine (s : State) (q : XR) (p : Half) (v : Byte) :
    (s.setXrHalf q p v).intLine = s.intLine :=
  by cases q <;> cases p <;> rfl

@[simp] theorem State.setXrHalf_busByte (s : State) (q : XR) (p : Half) (v : Byte) :
    (s.setXrHalf q p v).busByte = s.busByte :=
  by cases q <;> cases p <;> rfl

@[simp] theorem State.setXrHalf_mem (s : State) (q : XR) (p : Half) (v : Byte) : (s.setXrHalf q p v).mem = s.mem :=
  by cases q <;> cases p <;> rfl

@[simp] theorem State.setXrHalf_bus (s : State) (q : XR) (p : Half) (v : Byte) : (s.setXrHalf q p v).bus = s.bus :=
  by cases q <;> cases p <;> rfl

@[simp] theorem State.setXrHalf_tstates (s : State) (q : XR) (p : Half) (v : Byte) :
    (s.setXrHalf q p v).tstates = s.tstates :=
  by cases q <;> cases p <;> rfl

@[simp] theorem State.setXrHalf_draws (s : State) (q : XR) (p : Half) (v : Byte) :
    (s.setXrHalf q p v).draws = s.draws :=
  by cases q <;> cases p <;> rfl

@[simp] theorem State.setXrHalf_params (s : State) (q : XR) (p : Half) (v : Byte) :
    (s.setXrHalf q p v).params = s.params :=
  by cases q <;> cases p <;> rfl

/-! ### fetchOp -/

@[simp] theorem State.fetchOp_a (s : State) : (s.fetchOp).a = s.a := rfl

@[simp] theorem State.fetchOp_f (s : State) : (s.fetchOp).f = s.f := rfl

@[simp] theorem State.fetchOp_b (s : State) : (s.fetchOp).b = s.b := rfl

@[simp] theorem State.fetchOp_c (s : State) : (s.fetchOp).c = s.c := rfl

@[simp] theorem State.fetchOp_d (s : State) : (s.fetchOp).d = s.d := rfl

@[simp] theorem State.fetchOp_e (s : State) : (s.fetchOp).e = s.e := rfl

@[simp] theorem State.fetchOp_h (s : State) : (s.fetchOp).h = s.h := rfl

@[simp] theorem State.fetchOp_l (s : State) : (s.fetchOp).l = s.l := rfl

@[simp] theorem State.fetchOp_a' (s : State) : (s.fetchOp).a' = s.a' := rfl

@[simp] theorem State.fetchOp_f' (s : State) : (s.fetchOp).f' = s.f' := rfl

@[simp] theorem State.fetchOp_b' (s : State) : (s.fetchOp).b' = s.b' := rfl

@[simp] theorem State.fetchOp_c' (s : State) : (s.fetchOp).c' = s.c' := rfl

@[simp] theorem State.fetchOp_d' (s : State) : (s.fetchOp).d' = s.d' := rfl

@[simp] theorem State.fetchOp_e' (s : State) : (s.fetchOp).e' = s.e' := rfl

@[simp] theorem State.fetchOp_h' (s : State) : (s.fetchOp).h' = s.h' := rfl

@[simp] theorem State.fetchOp_l' (s : State) : (s.fetchOp).l' = s.l' := rfl

@[simp] theorem State.fetchOp_ix (s : State) : (s.fetchOp).ix = s.ix := rfl

@[simp] theorem State.fetchOp_iy (s : State) : (s.fetchOp).iy = s.iy := rfl

@[simp] theorem State.fetchOp_sp (s : State) : (s.fetchOp).sp = s.sp := rfl

@[simp] theorem State.fetchOp_pc (s : State) : (s.fetchOp).pc = s.pc + 1 := rfl

@[simp] theorem State.fetchOp_i (s : State) : (s.fetchOp).i = s.i := rfl

@[simp] theorem State.fetchOp_r (s : State) : (s.fetchOp).r = s.rInc.r := rfl

@[simp] theorem State.fetchOp_iff1 (s : State) : (s.fetchOp).iff1 = s.iff1 := rfl

@[simp] theorem State.fetchOp_iff2 (s : State) : (s.fetchOp).iff2 = s.iff2 := rfl

@[simp] theorem State.fetchOp_im (s : State) : (s.fetchOp).im = s.im := rfl

@[simp] theorem State.fetchOp_halted (s : State) : (s.fetchOp).halted = s.halted := rfl

@[simp] theorem State.fetchOp_eiDelay (s : State) : (s.fetchOp).eiDelay = s.eiDelay := rfl

@[simp] theorem State.fetchOp_nmiPending (s : State) : (s.fetchOp).nmiPending = s.nmiPending := rfl

@[simp] theorem State.fetchOp_fault (s : State) : (s.fetchOp).fault = s.fault := rfl

@[simp] theorem State.fetchOp_intLine (s : State) : (s.fetchOp).intLine = s.intLine := rfl

@[simp] theorem State.fetchOp_busByte (s : State) : (s.fetchOp).busByte = s.busByte := rfl

@[simp] theorem State.fetchOp_mem (s : State) : (s.fetchOp).mem = s.mem := rfl

@[simp] theorem State.fetchOp_bus (s : State) :
    (s.fetchOp).bus = s.bus ++ [{ kind := .m1, addr := s.pc, data := s.codeAt 0 s.pc }] :=
  rfl

@[simp] theorem State.fetchOp_tstates (s : State) : (s.fetchOp).tstates = s.tstates := rfl

@[simp] theorem State.fetchOp_draws (s : State) : (s.fetchOp).draws = s.draws + 1 := rfl

@[simp] theorem State.fetchOp_params (s : State) : (s.fetchOp).params = s.params := rfl

/-! ### fetchByte -/

@[simp] theorem State.fetchByte_a (s : State) : (s.fetchByte).a = s.a := rfl

@[simp] theorem State.fetchByte_f (s : State) : (s.fetchByte).f = s.f := rfl

@[simp] theorem State.fetchByte_b (s : State) : (s.fetchByte).b = s.b := rfl

@[simp] theorem State.fetchByte_c (s : State) : (s.fetchByte).c = s.c := rfl

@[simp] theorem State.fetchByte_d (s : State) : (s.fetchByte).d = s.d := rfl

@[simp] theorem State.fetchByte_e (s : State) : (s.fetchByte).e = s.e := rfl

@[simp] theorem State.fetchByte_h (s : State) : (s.fetchByte).h = s.h := rfl

@[simp] theorem State.fetchByte_l (s : State) : (s.fetchByte).l = s.l := rfl

@[simp] theorem State.fetchByte_a' (s : State) : (s.fetchByte).a' = s.a' := rfl

@[simp] theorem State.fetchByte_f' (s : State) : (s.fetchByte).f' = s.f' := rfl

@[simp] theorem State.fetchByte_b' (s : State) : (s.fetchByte).b' = s.b' := rfl

@[simp] theorem State.fetchByte_c' (s : State) : (s.fetchByte).c' = s.c' := rfl

@[simp] theorem State.fetchByte_d' (s : State) : (s.fetchByte).d' = s.d' := rfl

@[simp] theorem State.fetchByte_e' (s : State) : (s.fetchByte).e' = s.e' := rfl

@[simp] theorem State.fetchByte_h' (s : State) : (s.fetchByte).h' = s.h' := rfl

@[simp] theorem State.fetchByte_l' (s : State) : (s.fetchByte).l' = s.l' := rfl

@[simp] theorem State.fetchByte_ix (s : State) : (s.fetchByte).ix = s.ix := rfl

@[simp] theorem State.fetchByte_iy (s : State) : (s.fetchByte).iy = s.iy := rfl

@[simp] theorem State.fetchByte_sp (s : State) : (s.fetchByte).sp = s.sp := rfl

@[simp] theorem State.fetchByte_pc (s : State) : (s.fetchByte).pc = s.pc + 1 := rfl

@[simp] theorem State.fetchByte_i (s : State) : (s.fetchByte).i = s.i := rfl

@[simp] theorem State.fetchByte_r (s : State) : (s.fetchByte).r = s.r := rfl

@[simp] theorem State.fetchByte_iff1 (s : State) : (s.fetchByte).iff1 = s.iff1 := rfl

@[simp] theorem State.fetchByte_iff2 (s : State) : (s.fetchByte).iff2 = s.iff2 := rfl

@[simp] theorem State.fetchByte_im (s : State) : (s.fetchByte).im = s.im := rfl

@[simp] theorem State.fetchByte_halted (s : State) : (s.fetchByte).halted = s.halted := rfl

@[simp] theorem State.fetchByte_eiDelay (s : State) : (s.fetchByte).eiDelay = s.eiDelay := rfl

@[simp] theorem State.fetchByte_nmiPending (s : State) : (s.fetchByte).nmiPending = s.nmiPending := rfl

@[simp] theorem State.fetchByte_fault (s : State) : (s.fetchByte).fault = s.fault := rfl

@[simp] theorem State.fetchByte_intLine (s : State) : (s.fetchByte).intLine = s.intLine := rfl

@[simp] theorem State.fetchByte_busByte (s : State) : (s.fetchByte).busByte = s.busByte := rfl

@[simp] theorem State.fetchByte_mem (s : State) : (s.fetchByte).mem = s.mem := rfl

@[simp] theorem State.fetchByte_bus (s : State) :
    (s.fetchByte).bus = s.bus ++ [{ kind := .mr, addr := s.pc, data := s.codeAt 0 s.pc }] :=
  rfl

@[simp] theorem State.fetchByte_tstates (s : State) : (s.fetchByte).tstates = s.tstates := rfl

@[simp] theorem State.fetchByte_draws (s : State) : (s.fetchByte).draws = s.draws + 1 := rfl

@[simp] theorem State.fetchByte_params (s : State) : (s.fetchByte).params = s.params := rfl

/-! ### beginStep -/

@[simp] theorem State.beginStep_a (s : State) : (s.beginStep).a = s.a := rfl

@[simp] theorem State.beginStep_f (s : State) : (s.beginStep).f = s.f := rfl

@[simp] theorem State.beginStep_b (s : State) : (s.beginStep).b = s.b := rfl

@[simp] theorem State.beginStep_c (s : State) : (s.beginStep).c = s.c := rfl

@[simp] theorem State.beginStep_d (s : State) : (s.beginStep).d = s.d := rfl

@[simp] theorem State.beginStep_e (s : State) : (s.beginStep).e = s.e := rfl

@[simp] theorem State.beginStep_h (s : State) : (s.beginStep).h = s.h := rfl

@[simp] theorem State.beginStep_l (s : State) : (s.beginStep).l = s.l := rfl

@[simp] theorem State.beginStep_a' (s : State) : (s.beginStep).a' = s.a' := rfl

@[simp] theorem State.beginStep_f' (s : State) : (s.beginStep).f' = s.f' := rfl

@[simp] theorem State.beginStep_b' (s : State) : (s.beginStep).b' = s.b' := rfl

@[simp] theorem State.beginStep_c' (s : State) : (s.beginStep).c' = s.c' := rfl

@[simp] theorem State.beginStep_d' (s : State) : (s.beginStep).d' = s.d' := rfl

@[simp] theorem State.beginStep_e' (s : State) : (s.beginStep).e' = s.e' := rfl

@[simp] theorem State.beginStep_h' (s : State) : (s.beginStep).h' = s.h' := rfl

@[simp] theorem State.beginStep_l' (s : State) : (s.beginStep).l' = s.l' := rfl

@[simp] theorem State.beginStep_ix (s : State) : (s.beginStep).ix = s.ix := rfl

@[simp] theorem State.beginStep_iy (s : State) : (s.beginStep).iy = s.iy := rfl

@[simp] theorem State.beginStep_sp (s : State) : (s.beginStep).sp = s.sp := rfl

@[simp] theorem State.beginStep_pc (s : State) : (s.beginStep).pc = s.pc := rfl

@[simp] theorem State.beginStep_i (s : State) : (s.beginStep).i = s.i := rfl

@[simp] theorem State.beginStep_r (s : State) : (s.beginStep).r = s.r := rfl

@[simp] theorem State.beginStep_iff1 (s : State) : (s.beginStep).iff1 = s.iff1 := rfl

@[simp] theorem State.beginStep_iff2 (s : State) : (s.beginStep).iff2 = s.iff2 := rfl

@[simp] theorem State.beginStep_im (s : State) : (s.beginStep).im = s.im := rfl

@[simp] theorem State.beginStep_halted (s : State) : (s.beginStep).halted = s.halted := rfl

@[simp] theorem State.beginStep_eiDelay (s : State) : (s.beginStep).eiDelay = s.eiDelay := rfl

@[simp] theorem State.beginStep_nmiPending (s : State) : (s.beginStep).nmiPending = s.nmiPending := rfl

@[simp] theorem State.beginStep_fault (s : State) : (s.beginStep).fault = s.fault := rfl

@[simp] theorem State.beginStep_intLine (s : State) : (s.beginStep).intLine = s.intLine := rfl

@[simp] theorem State.beginStep_busByte (s : State) : (s.beginStep).busByte = s.busByte := rfl

@[simp] theorem State.beginStep_mem (s : State) : (s.beginStep).mem = s.mem := rfl

@[simp] theorem State.beginStep_bus (s : State) : (s.beginStep).bus = [] := rfl

@[simp] theorem State.beginStep_tstates (s : State) : (s.beginStep).tstates = none := rfl

@[simp] theorem State.beginStep_draws (s : State) : (s.beginStep).draws = s.draws := rfl

@[simp] theorem State.beginStep_params (s : State) : (s.beginStep).params = s.params := rfl

/-! ### tickEi -/

@[simp] theorem State.tickEi_a (s : State) : (s.tickEi).a = s.a := rfl

@[simp] theorem State.tickEi_f (s : State) : (s.tickEi).f = s.f := rfl

@[simp] theorem State.tickEi_b (s : State) : (s.tickEi).b = s.b := rfl

@[simp] theorem State.tickEi_c (s : State) : (s.tickEi).c = s.c := rfl

@[simp] theorem State.tickEi_d (s : State) : (s.tickEi).d = s.d := rfl

@[simp] theorem State.tickEi_e (s : State) : (s.tickEi).e = s.e := rfl

@[simp] theorem State.tickEi_h (s : State) : (s.tickEi).h = s.h := rfl

@[simp] theorem State.tickEi_l (s : State) : (s.tickEi).l = s.l := rfl

@[simp] theorem State.tickEi_a' (s : State) : (s.tickEi).a' = s.a' := rfl

@[simp] theorem State.tickEi_f' (s : State) : (s.tickEi).f' = s.f' := rfl

@[simp] theorem State.tickEi_b' (s : State) : (s.tickEi).b' = s.b' := rfl

@[simp] theorem State.tickEi_c' (s : State) : (s.tickEi).c' = s.c' := rfl

@[simp] theorem State.tickEi_d' (s : State) : (s.tickEi).d' = s.d' := rfl

@[simp] theorem State.tickEi_e' (s : State) : (s.tickEi).e' = s.e' := rfl

@[simp] theorem State.tickEi_h' (s : State) : (s.tickEi).h' = s.h' := rfl

@[simp] theorem State.tickEi_l' (s : State) : (s.tickEi).l' = s.l' := rfl

@[simp] theorem State.tickEi_ix (s : State) : (s.tickEi).ix = s.ix := rfl

@[simp] theorem State.tickEi_iy (s : State) : (s.tickEi).iy = s.iy := rfl

@[simp] theorem State.tickEi_sp (s : State) : (s.tickEi).sp = s.sp := rfl

@[simp] theorem State.tickEi_pc (s : State) : (s.tickEi).pc = s.pc := rfl

@[simp] theorem State.tickEi_i (s : State) : (s.tickEi).i = s.i := rfl

@[simp] theorem State.tickEi_r (s : State) : (s.tickEi).r = s.r := rfl

@[simp] theorem State.tickEi_iff1 (s : State) : (s.tickEi).iff1 = s.iff1 := rfl

@[simp] theorem State.tickEi_iff2 (s : State) : (s.tickEi).iff2 = s.iff2 := rfl

@[simp] theorem State.tickEi_im (s : State) : (s.tickEi).im = s.im := rfl

@[simp] theorem State.tickEi_halted (s : State) : (s.tickEi).halted = s.halted := rfl

@[simp] theorem State.tickEi_eiDelay (s : State) : (s.tickEi).eiDelay = s.eiDelay - 1 := rfl

@[simp] theorem State.tickEi_nmiPending (s : State) : (s.tickEi).nmiPending = s.nmiPending := rfl

@[simp] theorem State.tickEi_fault (s : State) : (s.tickEi).fault = s.fault := rfl

@[simp] theorem State.tickEi_intLine (s : State) : (s.tickEi).intLine = s.intLine := rfl

@[simp] theorem State.tickEi_busByte (s : State) : (s.tickEi).busByte = s.busByte := rfl

@[simp] theorem State.tickEi_mem (s : State) : (s.tickEi).mem = s.mem := rfl

@[simp] theorem State.tickEi_bus (s : State) : (s.tickEi).bus = s.bus := rfl

@[simp] theorem State.tickEi_tstates (s : State) : (s.tickEi).tstates = s.tstates := rfl

@[simp] theorem State.tickEi_draws (s : State) : (s.tickEi).draws = s.draws := rfl

@[simp] theorem State.tickEi_params (s : State) : (s.tickEi).params = s.params := rfl

/-! ### drawByte -/

@[simp] theorem State.drawByte_a (s : State) : (s.drawByte.2).a = s.a := rfl

@[simp] theorem State.drawByte_f (s : State) : (s.drawByte.2).f = s.f := rfl

@[simp] theorem State.drawByte_b (s : State) : (s.drawByte.2).b = s.b := rfl

@[simp] theorem State.drawByte_c (s : State) : (s.drawByte.2).c = s.c := rfl

@[simp] theorem State.drawByte_d (s : State) : (s.drawByte.2).d = s.d := rfl

@[simp] theorem State.drawByte_e (s : State) : (s.drawByte.2).e = s.e := rfl

@[simp] theorem State.drawByte_h (s : State) : (s.drawByte.2).h = s.h := rfl

@[simp] theorem State.drawByte_l (s : State) : (s.drawByte.2).l = s.l := rfl

@[simp] theorem State.drawByte_a' (s : State) : (s.drawByte.2).a' = s.a' := rfl

@[simp] theorem State.drawByte_f' (s : State) : (s.drawByte.2).f' = s.f' := rfl

@[simp] theorem State.drawByte_b' (s : State) : (s.drawByte.2).b' = s.b' := rfl

@[simp] theorem State.drawByte_c' (s : State) : (s.drawByte.2).c' = s.c' := rfl

@[simp] theorem State.drawByte_d' (s : State) : (s.drawByte.2).d' = s.d' := rfl

@[simp] theorem State.drawByte_e' (s : State) : (s.drawByte.2).e' = s.e' := rfl

@[simp] theorem State.drawByte_h' (s : State) : (s.drawByte.2).h' = s.h' := rfl

@[simp] theorem State.drawByte_l' (s : State) : (s.drawByte.2).l' = s.l' := rfl

@[simp] theorem State.drawByte_ix (s : State) : (s.drawByte.2).ix = s.ix := rfl

@[simp] theorem State.drawByte_iy (s : State) : (s.drawByte.2).iy = s.iy := rfl

@[simp] theorem State.drawByte_sp (s : State) : (s.drawByte.2).sp = s.sp := rfl

@[simp] theorem State.drawByte_pc (s : State) : (s.drawByte.2).pc = s.pc := rfl

@[simp] theorem State.drawByte_i (s : State) : (s.drawByte.2).i = s.i := rfl

@[simp] theorem State.drawByte_r (s : State) : (s.drawByte.2).r = s.r := rfl

@[simp] theorem State.drawByte_iff1 (s : State) : (s.drawByte.2).iff1 = s.iff1 := rfl

@[simp] theorem State.drawByte_iff2 (s : State) : (s.drawByte.2).iff2 = s.iff2 := rfl

@[simp] theorem State.drawByte_im (s : State) : (s.drawByte.2).im = s.im := rfl

@[simp] theorem State.drawByte_halted (s : State) : (s.drawByte.2).halted = s.halted := rfl

@[simp] theorem State.drawByte_eiDelay (s : State) : (s.drawByte.2).eiDelay = s.eiDelay := rfl

@[simp] theorem State.drawByte_nmiPending (s : State) : (s.drawByte.2).nmiPending = s.nmiPending := rfl

@[simp] theorem State.drawByte_fault (s : State) : (s.drawByte.2).fault = s.fault := rfl

@[simp] theorem State.drawByte_intLine (s : State) : (s.drawByte.2).intLine = s.intLine := rfl

@[simp] theorem State.drawByte_busByte (s : State) : (s.drawByte.2).busByte = s.busByte := rfl

@[simp] theorem State.drawByte_mem (s : State) : (s.drawByte.2).mem = s.mem := rfl

@[simp] theorem State.drawByte_bus (s : State) : (s.drawByte.2).bus = s.bus := rfl

@[simp] theorem State.drawByte_tstates (s : State) : (s.drawByte.2).tstates = s.tstates := rfl

@[simp] theorem State.drawByte_draws (s : State) : (s.drawByte.2).draws = s.draws + 1 := rfl

@[simp] theorem State.drawByte_params (s : State) : (s.drawByte.2).params = s.params := rfl

end Sys2Proof.Machine
end

