-- ==== Sys2Proof/Laws/Fetch.lean ====
section
/-! SUPPORT. What fetching does, once for a run of opcode fetches and once for a run of operand fetches. -/

namespace Sys2Proof.Machine

/-- Every instruction has an opcode fetch, and no more opcode fetches than bytes (30_encoding R104). -/
theorem m1_bounds (i : Instr) : 1 ≤ i.m1 ∧ i.m1 ≤ i.size := by
  induction i
  case prefixXrXr x i ih => exact ⟨Nat.le_add_left _ _, Nat.succ_le_succ ih.2⟩
  case prefixXrED x i ih => exact ⟨Nat.le_add_left _ _, Nat.succ_le_succ ih.2⟩
  case prefixXrPass x i ih => exact ⟨Nat.le_add_left _ _, Nat.succ_le_succ ih.2⟩
  all_goals first
    | exact ⟨Nat.le_refl _, Nat.le_add_left _ _⟩
    | exact ⟨Nat.le_succ _, Nat.le_add_left _ _⟩

/-- One more byte, in front. -/
theorem bytesFrom_succ (s : State) (n k : Nat) (a : Word) :
    s.bytesFrom (n + 1) k a = s.codeAt k a :: s.bytesFrom n (k + 1) (a + 1) := rfl

/-- The first byte the decoder reads. -/
theorem window_cons (s : State) (a : Word) :
    s.window a = s.codeAt 0 a :: s.bytesFrom (s.lastRunEnd a + 4) 1 (a + 1) := rfl

/-- The first two bytes the decoder reads. -/
theorem window_cons_cons (s : State) (a : Word) :
    s.window a = s.codeAt 0 a :: s.codeAt 1 (a + 1) :: s.bytesFrom (s.lastRunEnd a + 3) 2 (a + 1 + 1) := rfl

/-- What is fetched depends on the memory, the device and the draws made. -/
theorem bytesFrom_congr {s t : State} (h : t.mem = s.mem) (hp : t.params = s.params)
    (hd : t.draws = s.draws) (n k : Nat) (a : Word) : t.bytesFrom n k a = s.bytesFrom n k a := by
  induction n generalizing k a with
  | zero => rfl
  | succ n ih => rw [bytesFrom_succ, bytesFrom_succ, ih, codeAt_congr h hp (by rw [hd])]

/-- So does the instruction at an address. -/
theorem instrAt_congr {s t : State} (h : t.mem = s.mem) (hp : t.params = s.params) (hd : t.draws = s.draws)
    (a : Word) : t.instrAt a = s.instrAt a := by
  rw [State.instrAt, State.instrAt, State.window, State.window, State.lastRunEnd, State.lastRunEnd,
    bytesFrom_congr h hp hd, hp, hd]

/-- The address after one more byte. -/
theorem add_one_add_ofNat (a : Word) (k : Nat) : a + 1 + BitVec.ofNat 16 k = a + BitVec.ofNat 16 (k + 1) := by
  rw [BitVec.ofNat_add, BitVec.add_comm (BitVec.ofNat 16 k), ← BitVec.add_assoc]; rfl

/-- Reading bytes one by one: the byte at each place (10_state R36). -/
theorem getElem?_bytesFrom (s : State) (n j : Nat) (a : Word) (k : Nat) (h : k < n) :
    (s.bytesFrom n j a)[k]? = some (s.codeAt (j + k) (a + BitVec.ofNat 16 k)) := by
  induction n generalizing j a k with
  | zero => omega
  | succ n ih =>
    cases k with
    | zero => simp [bytesFrom_succ]
    | succ k =>
      rw [bytesFrom_succ, List.getElem?_cons_succ, ih (j + 1) (a + 1) k (by omega), add_one_add_ofNat,
        Nat.add_right_comm, Nat.add_assoc]

/-- Reading bytes: how many. -/
theorem length_bytesFrom (s : State) (n k : Nat) (a : Word) : (s.bytesFrom n k a).length = n := by
  induction n generalizing k a with
  | zero => rfl
  | succ n ih => rw [bytesFrom_succ, List.length_cons, ih]

/-- Reading bytes in two parts. -/
theorem bytesFrom_add (s : State) (m n j : Nat) (a : Word) : s.bytesFrom (m + n) j a =
    s.bytesFrom m j a ++ s.bytesFrom n (j + m) (a + BitVec.ofNat 16 m) := by
  induction m generalizing j a with
  | zero => simp [State.bytesFrom]
  | succ m ih =>
    rw [Nat.succ_add, bytesFrom_succ, bytesFrom_succ, ih, add_one_add_ofNat, List.cons_append,
      Nat.add_right_comm, Nat.add_assoc]

/-- A run of index prefixes that never ends does not end at a later fetch either. -/
theorem prefixesOnly_add {n : Nat} {a : Word} (h : prefixesOnly n a = true) (k : Nat) :
    prefixesOnly (n + k) (a + BitVec.ofNat 16 k) = true := by
  simp only [prefixesOnly, List.any_eq_true, List.mem_range] at h ⊢
  obtain ⟨j, hj, he⟩ := h
  refine ⟨j, by omega, ?_⟩
  rwa [Nat.sub_add_comm (Nat.le_of_lt_succ hj), Nat.add_comm, BitVec.ofNat_add, ← sub_sub,
    BitVec.add_sub_cancel]

/-- In such a run every answer is an index prefix. -/
theorem isIndexPrefix_oracleFetch {n : Nat} {a : Word} (h : prefixesOnly n a = true) :
    isIndexPrefix (oracleFetch n a) = true := by
  simp only [oracleFetch, h, if_true]
  split
  · assumption
  · rfl

/-- Where a run ends, the answer is none. -/
theorem not_isIndexPrefix_oracleFetch {n : Nat} {a : Word} (h : prefixesOnly n a = false)
    (he : runEndsAt n a = true) : isIndexPrefix (oracleFetch n a) = false := by
  simp only [oracleFetch, h, he, Bool.true_and, Bool.false_eq_true, if_false]
  split
  · rfl
  · exact Bool.eq_false_iff.mpr ‹_›

/-- A run of index prefixes that has not ended by `lastRunEnd` never ends (log entry 11). -/
theorem run_ends_by_lastRunEnd {s : State} {a : Word}
    (h : ∀ k ≤ s.lastRunEnd a, isIndexPrefix (s.codeAt k (a + BitVec.ofNat 16 k)) = true) (k : Nat) :
    isIndexPrefix (s.codeAt k (a + BitVec.ofNat 16 k)) = true := by
  cases hd : s.params.memDevice with
  | ram =>
    have hk := h (k % 65536) (by rw [State.lastRunEnd, hd]; exact Nat.le_of_lt_succ (Nat.mod_lt _ (by decide)))
    have hw : BitVec.ofNat 16 (k % 65536) = BitVec.ofNat 16 k := by apply BitVec.eq_of_toNat_eq; simp
    rwa [hw, codeAt_of_ram hd, ← codeAt_of_ram hd k] at hk
  | oracle =>
    have hc (k : Nat) (a : Word) : s.codeAt k a = oracleFetch (s.draws + k) a := by rw [State.codeAt, hd]
    simp only [hc] at h ⊢
    have hs (k : Nat) : a + BitVec.ofNat 16 k - BitVec.ofNat 16 (s.draws + k - s.draws) = a := by
      rw [Nat.add_sub_cancel_left, BitVec.add_sub_cancel]
    cases he : Config.runEnd s.draws a with
    | none =>
      exact isIndexPrefix_oracleFetch (List.any_eq_true.mpr
        ⟨s.draws, List.mem_range.mpr (by omega), by rw [hs, he]; rfl⟩)
    | some m =>
      have hl : s.lastRunEnd a = m := by rw [State.lastRunEnd, hd, he]; rfl
      by_cases hp : prefixesOnly (s.draws + m) (a + BitVec.ofNat 16 m) = true
      · by_cases hkm : k ≤ m
        · exact h k (hl ▸ hkm)
        · have := prefixesOnly_add hp (k - m)
          rw [Nat.add_assoc, BitVec.add_assoc, ← BitVec.ofNat_add, Nat.add_sub_cancel' (by omega)] at this
          exact isIndexPrefix_oracleFetch this
      · have hr : runEndsAt (s.draws + m) (a + BitVec.ofNat 16 m) = true := List.any_eq_true.mpr
          ⟨s.draws, List.mem_range.mpr (by omega), by
            rw [hs, he, Nat.add_sub_cancel_left]; exact beq_self_eq_true _⟩
        have := h m (hl ▸ Nat.le_refl m)
        rw [not_isIndexPrefix_oracleFetch (Bool.eq_false_iff.mpr hp) hr] at this
        exact absurd this (by decide)

/-- A run of opcode fetches: PC, R and the draws count, the M1 reads are performed, nothing else changes
(10_state R36, R46). -/
theorem fetchOps_eq (n : Nat) (s : State) : s.fetchOps n = { s with
    pc := s.pc + BitVec.ofNat 16 n, r := (s.fetchOps n).r, draws := s.draws + n
    bus := s.bus ++ (List.range n).map fun k =>
      { kind := .m1, addr := s.pc + BitVec.ofNat 16 k, data := s.codeAt k (s.pc + BitVec.ofNat 16 k) } } := by
  induction n generalizing s with
  | zero => simp [State.fetchOps]
  | succ n ih =>
    have hc (k : Nat) (a : Word) : s.fetchOp.codeAt k a = s.codeAt (k + 1) a :=
      codeAt_congr (s := s) (t := s.fetchOp) rfl rfl (Nat.add_right_comm s.draws 1 k) a
    rw [State.fetchOps, ih s.fetchOp]
    simp only [hc, State.fetchOp_pc, add_one_add_ofNat]
    simp [State.fetchOp, State.rInc, State.emit, List.range_succ_eq_map, Function.comp_def, Nat.add_comm 1 n,
      Nat.add_assoc]

/-- A run of operand fetches: PC and the draws count, the reads are performed, nothing else changes
(00_scope R12). -/
theorem fetchBytes_eq (n : Nat) (s : State) : s.fetchBytes n = { s with
    pc := s.pc + BitVec.ofNat 16 n, draws := s.draws + n
    bus := s.bus ++ (List.range n).map fun k =>
      { kind := .mr, addr := s.pc + BitVec.ofNat 16 k, data := s.codeAt k (s.pc + BitVec.ofNat 16 k) } } := by
  induction n generalizing s with
  | zero => simp [State.fetchBytes]
  | succ n ih =>
    have hc (k : Nat) (a : Word) : s.fetchByte.codeAt k a = s.codeAt (k + 1) a :=
      codeAt_congr (s := s) (t := s.fetchByte) rfl rfl (Nat.add_right_comm s.draws 1 k) a
    rw [State.fetchBytes, ih s.fetchByte]
    simp only [hc, State.fetchByte_pc, add_one_add_ofNat]
    simp [State.fetchByte, State.emit, List.range_succ_eq_map, Function.comp_def, Nat.add_comm 1 n,
      Nat.add_assoc]

/-- R after a run of opcode fetches: bit 7 stays, the low seven bits count mod 128 (10_state R46). -/
theorem fetchOps_r (n : Nat) (s : State) : (s.fetchOps n).r.getLsbD 7 = s.r.getLsbD 7 ∧
    (s.fetchOps n).r.toNat % 128 = (s.r.toNat + n) % 128 := by
  have one (v : Byte) : ((v &&& 0x80) ||| ((v + 1) &&& 0x7F)).getLsbD 7 = v.getLsbD 7 ∧
      ((v &&& 0x80) ||| ((v + 1) &&& 0x7F)).toNat % 128 = (v.toNat + 1) % 128 := by
    revert v; decide +kernel
  induction n generalizing s with
  | zero => simp [State.fetchOps]
  | succ n ih =>
    have h := ih s.fetchOp
    have h1 := one s.r
    refine ⟨h.1.trans h1.1, h.2.trans ?_⟩
    have hr : s.fetchOp.r = (s.r &&& 0x80) ||| ((s.r + 1) &&& 0x7F) := rfl
    rw [hr]
    omega

end Sys2Proof.Machine
end

