-- ==== Sys2Proof/Laws/Decode.lean ====
section
/-! SUPPORT. When decoding answers an instruction: each table does where three operand bytes follow, so the only
bytes that are never one are index prefixes without end (30_encoding R105, R113). -/

namespace Sys2Proof.Machine

theorem withByte_isSome (f : Byte → Instr) (a : Byte) (l : List Byte) : (withByte f (a :: l)).isSome = true := rfl

theorem withTwo_isSome (f : Byte → Byte → Instr) (a b : Byte) (l : List Byte) :
    (withTwo f (a :: b :: l)).isSome = true := rfl

theorem withWord_isSome (f : Word → Instr) (a b : Byte) (l : List Byte) :
    (withWord f (a :: b :: l)).isSome = true := rfl

/-- The base table (30_encoding R106). -/
theorem decodeBase_isSome (op a b : Byte) (l : List Byte) : (decodeBase op (a :: b :: l)).isSome = true := by
  rw [decodeBase, decodeBase0, decodeBase3]
  repeat' split
  all_goals rfl

/-- The ED table (30_encoding R108). -/
theorem decodeED_isSome (op a b : Byte) (l : List Byte) : (decodeED op (a :: b :: l)).isSome = true := by
  rw [decodeED, decodeED1]
  repeat' split
  all_goals rfl

/-- The entries that an index prefix modifies (30_encoding R111). -/
theorem decodeListed_isSome (x : XR) (op a b : Byte) (l : List Byte) {e : Entry}
    (h : decodeListed x op (a :: b :: l) = some e) : e.isSome = true := by
  simp only [decodeListed] at h
  repeat' split at h
  all_goals first
    | (cases h <;> rfl)
    | (obtain ⟨_, _, rfl⟩ := Option.map_eq_some_iff.mp h; rfl)

/-- The index table (30_encoding R110 to R112). -/
theorem decodeIndex_isSome (x : XR) (op a b : Byte) (l : List Byte) :
    (decodeIndex x op (a :: b :: l)).isSome = true := by
  rw [decodeIndex]
  split
  · exact decodeListed_isSome _ _ _ _ _ ‹_›
  · rw [Option.isSome_map]; exact decodeBase_isSome op a b l

/-- A byte is an index prefix where the decoder takes it for one. -/
theorem isIndexPrefix_eq (v : Byte) : isIndexPrefix v = (xrOfLead v).isSome := by
  rw [xrOfLead, isIndexPrefix]
  repeat' split
  all_goals simp_all

/-- Three bytes, one by one. -/
theorem exists_cons_of_length {l : List Byte} (h : 3 ≤ l.length) : ∃ a b c r, l = a :: b :: c :: r := by
  match l, h with
  | a :: b :: c :: r, _ => exact ⟨a, b, c, r, rfl⟩

/-- After an index prefix there is an instruction, if some byte is none and three bytes follow it. -/
theorem decodeAfterXr_isSome (u : List (XR × Byte)) (x : XR) {l : List Byte} {k : Nat} {v : Byte}
    (hk : l[k]? = some v) (hv : isIndexPrefix v = false) (hl : k + 4 ≤ l.length) :
    (decodeAfterXr u x l).isSome = true := by
  induction l generalizing x k with
  | nil => cases hk
  | cons w l ih =>
    unfold decodeAfterXr
    cases hx : xrOfLead w with
    | some x' =>
      cases k with
      | zero => cases hk; rw [isIndexPrefix_eq, hx] at hv; cases hv
      | succ k => rw [Option.isSome_map]; exact ih x' hk (by simp at hl; omega)
    | none =>
      obtain ⟨a, b, c, r, rfl⟩ := exists_cons_of_length (l := l) (by simp at hl; omega)
      dsimp only
      split
      · rfl
      split
      · rw [Option.isSome_map]; exact decodeED_isSome a b c r
      split
      · rfl
      · exact decodeIndex_isSome x w a b (c :: r)

/-- Nothing but index prefixes is no instruction. -/
theorem decodeAfterXr_eq_none (u : List (XR × Byte)) (x : XR) {l : List Byte}
    (h : ∀ v ∈ l, isIndexPrefix v = true) : decodeAfterXr u x l = none := by
  induction l generalizing x with
  | nil => rfl
  | cons w l ih =>
    obtain ⟨x', hx⟩ := Option.isSome_iff_exists.mp (isIndexPrefix_eq w ▸ h w (List.mem_cons_self ..))
    unfold decodeAfterXr
    rw [hx]
    dsimp only
    rw [ih x' fun v hv => h v (List.mem_cons_of_mem _ hv)]
    rfl

/-- Bytes are an instruction, if some byte is no index prefix and three bytes follow it. -/
theorem decodeWith_isOk (u : List (XR × Byte)) {l : List Byte} {k : Nat} {v : Byte} (hk : l[k]? = some v)
    (hv : isIndexPrefix v = false) (hl : k + 4 ≤ l.length) : ∃ r, decodeWith u l = .ok r := by
  cases l with
  | nil => cases hk
  | cons w l =>
    obtain ⟨a, b, c, r, rfl⟩ := exists_cons_of_length (l := l) (by simp at hl; omega)
    suffices h : ∀ e : Entry, e.isSome = true → ∃ r, (match e with
        | some r => .ok r
        | none => .error .truncated : Except DecodeError (Instr × List Byte)) = .ok r by
      apply h
      dsimp only
      cases hx : xrOfLead w with
      | some x =>
        cases k with
        | zero => cases hk; rw [isIndexPrefix_eq, hx] at hv; cases hv
        | succ k => exact decodeAfterXr_isSome u x hk hv (by simp at hl ⊢; omega)
      | none =>
        dsimp only
        split
        · rfl
        split
        · exact decodeED_isSome a b c r
        · exact decodeBase_isSome w a b (c :: r)
    intro e h
    obtain ⟨r, rfl⟩ := Option.isSome_iff_exists.mp h
    exact ⟨r, rfl⟩

/-- Nothing but index prefixes is an error. -/
theorem decodeWith_error (u : List (XR × Byte)) {l : List Byte} (h : ∀ v ∈ l, isIndexPrefix v = true) :
    ∃ e, decodeWith u l = .error e := by
  cases l with
  | nil => exact ⟨_, rfl⟩
  | cons w l =>
    obtain ⟨x, hx⟩ := Option.isSome_iff_exists.mp (isIndexPrefix_eq w ▸ h w (List.mem_cons_self ..))
    refine ⟨.truncated, ?_⟩
    simp only [decodeWith, hx, decodeAfterXr_eq_none u x fun v hv => h v (List.mem_cons_of_mem _ hv)]

/-- There is no instruction at an address exactly where the fetches from it on answer index prefixes for ever
(30_encoding R105, R113, log entry 11). -/
theorem instrAt_error_iff (s : State) (a : Word) : (∃ e, s.instrAt a = .error e) ↔
    ∀ k, isIndexPrefix (s.codeAt k (a + BitVec.ofNat 16 k)) = true := by
  constructor
  · rintro ⟨e, he⟩
    refine run_ends_by_lastRunEnd fun k hk => ?_
    by_contra hv
    obtain ⟨r, hr⟩ := decodeWith_isOk s.params.undocUnimpl (l := s.window a)
      (by rw [State.window, getElem?_bytesFrom _ _ _ _ k (by omega), Nat.zero_add])
      (Bool.eq_false_iff.mpr hv) (by rw [State.window, length_bytesFrom]; omega)
    rw [State.instrAt, hr] at he
    cases he
  · intro h
    obtain ⟨e, he⟩ := decodeWith_error s.params.undocUnimpl (l := s.window a) fun v hv => by
      obtain ⟨k, hk⟩ := List.mem_iff_getElem?.mp hv
      have hk' : k < s.lastRunEnd a + 5 := by
        have := (List.getElem?_eq_some_iff.mp hk).1
        rwa [State.window, length_bytesFrom] at this
      rw [State.window, getElem?_bytesFrom _ _ _ _ k hk', Nat.zero_add] at hk
      exact Option.some.inj hk ▸ h k
    exact ⟨e, by rw [State.instrAt, he]⟩

end Sys2Proof.Machine
end

