-- ==== Sys2Proof/Laws/Flags.lean ====
section
/-! SUPPORT. The flag functions, bit by bit, and the arithmetic they stand for. -/

namespace Sys2Proof.Machine

/-- The bits of a flag byte built from eight flags. -/
theorem flagsAre_mkFlags (s z y h x pv n c : Bool) : FlagsAre (mkFlags s z y h x pv n c) s z y h x pv n c := by
  revert s z y h x pv n c
  unfold FlagsAre
  decide +kernel

/-- `parity` counts the 1 bits (00_scope R13). -/
theorem parity_eq (v : Byte) : parity v = evenParity v := by
  revert v
  decide +kernel

/-- The flags of a result with S, Z, Y and X from it. -/
theorem flagsAre_flagsSZXY (v : Byte) (h pv n c : Bool) :
    FlagsAre (flagsSZXY v h pv n c) (v.getLsbD 7) (v == 0) (v.getLsbD 5) h (v.getLsbD 3) pv n c :=
  flagsAre_mkFlags ..

/-- The flags of a result with parity as well. -/
theorem flagsAre_flagsSZXYP (v : Byte) (h n c : Bool) :
    FlagsAre (flagsSZXYP v h n c) (v.getLsbD 7) (v == 0) (v.getLsbD 5) h (v.getLsbD 3) (evenParity v) n c := by
  rw [← parity_eq]
  exact flagsAre_flagsSZXY ..

/-- ADD8's result and its flags (43_alu8 R230). -/
theorem add8_spec (a b : Byte) (c : Bool) :
    (add8 a b c).1 = BitVec.ofNat 8 (a.toNat + b.toNat + c.toNat) ∧
      FlagsAre (add8 a b c).2 ((add8 a b c).1.getLsbD 7) ((add8 a b c).1 == 0) ((add8 a b c).1.getLsbD 5)
        (decide (15 < a.toNat % 16 + b.toNat % 16 + c.toNat)) ((add8 a b c).1.getLsbD 3)
        (a.getLsbD 7 == b.getLsbD 7 && (add8 a b c).1.getLsbD 7 != a.getLsbD 7) false
        (decide (255 < a.toNat + b.toNat + c.toNat)) :=
  ⟨rfl, flagsAre_flagsSZXY ..⟩

/-- The byte of an exact difference. -/
theorem ofInt_sub8 (a b : Byte) (c : Bool) :
    BitVec.ofInt 8 ((a.toNat : Int) - b.toNat - c.toNat) = a - b - BitVec.ofNat 8 c.toNat := by
  apply BitVec.eq_of_toNat_eq
  have ha := a.isLt
  have hb := b.isLt
  cases c <;> simp only [BitVec.toNat_ofInt, BitVec.toNat_sub, BitVec.toNat_ofNat, Bool.toNat_false,
    Bool.toNat_true] <;> omega

/-- SUB8's result and its flags, with the borrows as comparisons (43_alu8 R231). -/
theorem sub8_spec (a b : Byte) (c : Bool) :
    (sub8 a b c).1 = a - b - BitVec.ofNat 8 c.toNat ∧
      FlagsAre (sub8 a b c).2 ((sub8 a b c).1.getLsbD 7) ((sub8 a b c).1 == 0) ((sub8 a b c).1.getLsbD 5)
        (decide (a.toNat % 16 < b.toNat % 16 + c.toNat)) ((sub8 a b c).1.getLsbD 3)
        (a.getLsbD 7 != b.getLsbD 7 && (sub8 a b c).1.getLsbD 7 != a.getLsbD 7) true
        (decide (a.toNat < b.toNat + c.toNat)) := by
  refine ⟨ofInt_sub8 a b c, ?_⟩
  have h1 : decide (((a.toNat % 16 : Nat) : Int) - (b.toNat % 16 : Nat) - c.toNat < 0) =
      decide (a.toNat % 16 < b.toNat % 16 + c.toNat) := by
    congr 1; apply propext; omega
  have h2 : decide ((a.toNat : Int) - b.toNat - c.toNat < 0) = decide (a.toNat < b.toNat + c.toNat) := by
    congr 1; apply propext; omega
  rw [← h1, ← h2]
  exact flagsAre_flagsSZXY ..

/-- The word of an exact difference. -/
theorem ofInt_sub16 (a b : Word) (c : Bool) :
    BitVec.ofInt 16 ((a.toNat : Int) - b.toNat - c.toNat) = a - b - BitVec.ofNat 16 c.toNat := by
  apply BitVec.eq_of_toNat_eq
  have ha := a.isLt
  have hb := b.isLt
  cases c <;> simp only [BitVec.toNat_ofInt, BitVec.toNat_sub, BitVec.toNat_ofNat, Bool.toNat_false,
    Bool.toNat_true] <;> omega

/-- Replacing Y and X leaves the other flags. -/
theorem flagsAre_withYX {f : Byte} {s z y h x pv n c : Bool} (hf : FlagsAre f s z y h x pv n c) (y' x' : Bool) :
    FlagsAre (withYX f y' x') s z y' h x' pv n c := by
  obtain ⟨rfl, rfl, -, rfl, -, rfl, rfl, rfl⟩ := hf
  exact flagsAre_mkFlags ..

/-- The closed form of DAA's correction and carry (44_general R260). -/
theorem daaTable_eq : ∀ (a : Byte) (c h : Bool), daaTable c (a.toNat / 16) h (a.toNat % 16) =
    ((if h || decide (9 < a.toNat % 16) then 0x06 else 0x00) +
      (if c || decide (0x99 < a.toNat) then 0x60 else 0x00), c || decide (0x99 < a.toNat)) := by
  decide +kernel

end Sys2Proof.Machine
end

