-- ==== Sys2Proof/Laws/Operands.lean ====
section
/-! SUPPORT. One lemma per shared operation of the instruction families: everything it does, field by field. -/

namespace Sys2Proof.Machine

/-- A repeating block iteration: PC, the cost, and, where BLOCK_REPEAT_FLAGS is `chip_2018` and it repeats, F
with a draw (42_exchange_block R206, R213). -/
theorem repeatBlock_eq (s : State) (io again : Bool) : s.repeatBlock io again = { s with
    pc := if again then s.pc - 2 else s.pc, tstates := some (if again then 21 else 16)
    f := if again && s.params.repeatFlags == .chip2018 then
      repeatFlagByte .chip2018 io (s.pc - 2) (Config.freeByte s.draws) s.f else s.f
    draws := if again && s.params.repeatFlags == .chip2018 then s.draws + 1 else s.draws } := by
  cases again
  · rfl
  · unfold State.repeatBlock
    cases h : s.params.repeatFlags <;> rfl

/-- An accumulator operation writes A and F. -/
theorem aluA_eq (s : State) (op : AluOp) (v : Byte) :
    s.aluA op v = { s with a := (alu8 op s.a v s.f).1, f := (alu8 op s.a v s.f).2 } := rfl

/-- An operation on a register writes it and F. -/
theorem modifyReg_eq (s : State) (r : Reg8) (op : Byte → Byte → Byte × Byte) :
    s.modifyReg r op = { s.setReg8 r (op (s.reg8 r) s.f).1 with f := (op (s.reg8 r) s.f).2 } := rfl

/-- An operation on a byte of an index register writes it and F. -/
theorem modifyXrHalf_eq (s : State) (x : XR) (p : Half) (op : Byte → Byte → Byte × Byte) :
    s.modifyXrHalf x p op =
      { s.setXrHalf x p (op (s.xrHalf x p) s.f).1 with f := (op (s.xrHalf x p) s.f).2 } := rfl

/-- An operation on a byte of memory reads it, writes it, and writes F. -/
theorem modifyAt_eq (s : State) (a : Word) (op : Byte → Byte → Byte × Byte) : s.modifyAt a op = { s with
    f := (op (s.byteAt a) s.f).2, mem := memSet s.mem a.toNat (op (s.byteAt a) s.f).1
    bus := s.bus ++ [mr a (s.byteAt a)] ++ [mw a (op (s.byteAt a) s.f).1] } := rfl

/-- The same with the result copied to a register. -/
theorem modifyAtCopy_eq (s : State) (a : Word) (r : Reg8) (op : Byte → Byte → Byte × Byte) :
    s.modifyAtCopy a r op = { s.setReg8 r (op (s.byteAt a) s.f).1 with
      f := (op (s.byteAt a) s.f).2, mem := memSet s.mem a.toNat (op (s.byteAt a) s.f).1
      bus := s.bus ++ [mr a (s.byteAt a)] ++ [mw a (op (s.byteAt a) s.f).1] } := by
  cases r <;> rfl

/-- An I/O read draws the device's answer (20_memory R75). -/
theorem ioRead_eq (s : State) (port : Word) : s.ioRead port = (Config.ioAnswer s.draws port, { s with
    bus := s.bus ++ [ior port (Config.ioAnswer s.draws port)], draws := s.draws + 1 }) := rfl

/-- An I/O write is a transaction (20_memory R75). -/
theorem ioWrite_eq (s : State) (port : Word) (v : Byte) :
    s.ioWrite port v = { s with bus := s.bus ++ [iow port v] } := rfl

/-- SCF and CCF: the bits that XY_SCF_CCF gives, and a draw where it is `chip_Q` (44_general R265). -/
theorem scfBits_eq (s : State) : s.scfBits =
    (scfYX s.params.scfFlags s.a s.f (Config.freeByte s.draws),
      { s with draws := if s.params.scfFlags = .chipQ then s.draws + 1 else s.draws }) := by
  unfold State.scfBits
  cases h : s.params.scfFlags <;> rfl

/-- A return pops PC (48_jump_call R369). -/
theorem returnTo_eq (s : State) : s.returnTo = { s with
    pc := mkWord (s.byteAt (s.sp + 1)) (s.byteAt s.sp), sp := s.sp + 1 + 1
    bus := s.bus ++ [mr s.sp (s.byteAt s.sp)] ++ [mr (s.sp + 1) (s.byteAt (s.sp + 1))] } := rfl

/-- RETN and RETI also copy IFF2 to IFF1 (48_jump_call R371, R372). -/
theorem returnFromInterrupt_eq (s : State) : s.returnFromInterrupt = { s with
    pc := mkWord (s.byteAt (s.sp + 1)) (s.byteAt s.sp), sp := s.sp + 1 + 1, iff1 := s.iff2
    bus := s.bus ++ [mr s.sp (s.byteAt s.sp)] ++ [mr (s.sp + 1) (s.byteAt (s.sp + 1))] } := rfl

/-- Restoring a faulting step keeps the state at its start but for the record and the transactions
(60_exceptions R441). -/
theorem settleFault_raise {s t : State} (kind : FaultKind) : settleFault s (.next (t.raise kind)) =
    .next { s with
      fault := some { kind := kind, pc := t.firstFetch, bytes := t.fetchedOpcodes }
      bus := t.bus, tstates := none, draws := t.draws } := rfl

/-- A step that raises nothing is not restored. -/
theorem settleFault_next {s t : State} (h : t.fault = none) : settleFault s (.next t) = .next t := by
  simp [settleFault, h]

end Sys2Proof.Machine
end

