-- ==== Sys2Proof/Laws/Frame.lean ====
section
/-! SUPPORT. What no shared operation of the instruction families writes, said once per operation: the shadow
registers, I, R, the interrupt state, the halted bit, the fault record and the inputs; and that every shared
operation keeps memory canonical. -/

namespace Sys2Proof.Machine

/-- The part of the state that the data operations leave alone, the parameters among it. -/
structure Control where
  shadow : List Byte
  i : Byte
  r : Byte
  iff1 : Bool
  iff2 : Bool
  im : IntMode
  halted : Bool
  eiDelay : Nat
  nmiPending : Bool
  fault : Option FaultRecord
  intLine : Bool
  busByte : Byte
  params : Params

/-- The control part of a state. -/
def State.control (s : State) : Control where
  shadow := [s.a', s.f', s.b', s.c', s.d', s.e', s.h', s.l']
  i := s.i
  r := s.r
  iff1 := s.iff1
  iff2 := s.iff2
  im := s.im
  halted := s.halted
  eiDelay := s.eiDelay
  nmiPending := s.nmiPending
  fault := s.fault
  intLine := s.intLine
  busByte := s.busByte
  params := s.params

/-! ### Register and bus operations -/

theorem withPc_control (s : State) (p : Word) : State.control { s with pc := p } = s.control := rfl

theorem withB_control (s : State) (v : Byte) : State.control { s with b := v } = s.control := rfl

theorem withAf_control (s : State) (v f : Byte) : State.control { s with a := v, f := f } = s.control := rfl

theorem withMem_control (s : State) (m : List Host.Cell) (b : List BusEvent) :
    State.control { s with mem := m, bus := b } = s.control := rfl

theorem withSp_control (s : State) (p : Word) : State.control { s with sp := p } = s.control := rfl

theorem withDraws_control (s : State) (n : Nat) : State.control { s with draws := n } = s.control := rfl

@[simp] theorem emit_control (s : State) (k : BusKind) (p : Word) (v : Byte) :
    (s.emit k p v).control = s.control := rfl

@[simp] theorem readAt_control (s : State) (p : Word) : (s.readAt p).control = s.control := rfl

@[simp] theorem readWordAt_control (s : State) (p : Word) : (s.readWordAt p).control = s.control := rfl

@[simp] theorem writeAt_control (s : State) (p : Word) (v : Byte) : (s.writeAt p v).control = s.control :=
  withMem_control _ _ _

@[simp] theorem writeWordAt_control (s : State) (p v : Word) : (s.writeWordAt p v).control = s.control := by
  simp [State.writeWordAt]

@[simp] theorem ioRead_control (s : State) (p : Word) : (s.ioRead p).2.control = s.control := rfl

@[simp] theorem ioWrite_control (s : State) (p : Word) (v : Byte) : (s.ioWrite p v).control = s.control := rfl

@[simp] theorem drawByte_control (s : State) : s.drawByte.2.control = s.control := rfl

@[simp] theorem push_control (s : State) (v : Word) : (s.push v).control = s.control := by
  unfold State.push
  dsimp only
  rw [writeAt_control, withSp_control, writeAt_control, withSp_control]

@[simp] theorem pop_control (s : State) : s.pop.2.control = s.control := rfl

@[simp] theorem took_control (s : State) (n : Nat) : (s.took n).control = s.control := rfl

@[simp] theorem setF_control (s : State) (f : Byte) : (s.setF f).control = s.control := rfl

@[simp] theorem setBc_control (s : State) (v : Word) : (s.setBc v).control = s.control := rfl

@[simp] theorem setDe_control (s : State) (v : Word) : (s.setDe v).control = s.control := rfl

@[simp] theorem setHl_control (s : State) (v : Word) : (s.setHl v).control = s.control := rfl

@[simp] theorem setReg8_control (s : State) (r : Reg8) (v : Byte) : (s.setReg8 r v).control = s.control := by
  cases r <;> rfl

@[simp] theorem setReg8Xr_control (s : State) (x : XR) (r : Reg8) (v : Byte) :
    (s.setReg8Xr x r v).control = s.control := by
  cases r <;> cases x <;> rfl

@[simp] theorem setPair_control (s : State) (p : Pair) (v : Word) : (s.setPair p v).control = s.control := by
  cases p <;> rfl

@[simp] theorem setStackPair_control (s : State) (p : StackPair) (v : Word) :
    (s.setStackPair p v).control = s.control := by
  cases p <;> rfl

@[simp] theorem setXr_control (s : State) (x : XR) (v : Word) : (s.setXr x v).control = s.control := by
  cases x <;> rfl

@[simp] theorem setXrHalf_control (s : State) (x : XR) (p : Half) (v : Byte) :
    (s.setXrHalf x p v).control = s.control := by
  cases x <;> cases p <;> rfl

/-! ### Operations of the families -/

@[simp] theorem aluA_control (s : State) (op : AluOp) (v : Byte) : (s.aluA op v).control = s.control :=
  withAf_control _ _ _

@[simp] theorem modifyReg_control (s : State) (r : Reg8) (op : Byte → Byte → Byte × Byte) :
    (s.modifyReg r op).control = s.control := by
  cases r <;> rfl

@[simp] theorem modifyXrHalf_control (s : State) (x : XR) (p : Half) (op : Byte → Byte → Byte × Byte) :
    (s.modifyXrHalf x p op).control = s.control := by
  cases x <;> cases p <;> rfl

@[simp] theorem modifyAt_control (s : State) (a : Word) (op : Byte → Byte → Byte × Byte) :
    (s.modifyAt a op).control = s.control := by
  simp [State.modifyAt]

@[simp] theorem modifyAtCopy_control (s : State) (a : Word) (r : Reg8) (op : Byte → Byte → Byte × Byte) :
    (s.modifyAtCopy a r op).control = s.control := by
  cases r <;> rfl

@[simp] theorem repeatBlock_control (s : State) (io again : Bool) :
    (s.repeatBlock io again).control = s.control := by
  rw [repeatBlock_eq]; rfl

@[simp] theorem scfBits_control (s : State) : s.scfBits.2.control = s.control := by
  rw [scfBits_eq]; rfl

@[simp] theorem blockLoad_control (s : State) (step : Word) : (s.blockLoad step).control = s.control := by
  simp [State.blockLoad]

@[simp] theorem blockCompare_control (s : State) (step : Word) : (s.blockCompare step).control = s.control :=
  rfl

@[simp] theorem blockIn_control (s : State) (step : Word) : (s.blockIn step).control = s.control := by
  unfold State.blockIn
  dsimp only
  rw [setF_control, withB_control, setHl_control, writeAt_control, ioRead_control]

@[simp] theorem blockOut_control (s : State) (step : Word) : (s.blockOut step).control = s.control := by
  unfold State.blockOut
  dsimp only
  rw [setF_control, setHl_control, ioWrite_control, withB_control, readAt_control]

@[simp] theorem exchangeTop_control (s : State) (v : Word) : (s.exchangeTop v).control = s.control := by
  simp [State.exchangeTop]

@[simp] theorem rotateA_control (s : State) (k : Rot) : (s.rotateA k).control = s.control :=
  withAf_control _ _ _

@[simp] theorem digitRotate_control (s : State) (v a : Byte) : (s.digitRotate v a).control = s.control := by
  unfold State.digitRotate
  rw [withAf_control, writeAt_control, readAt_control]

@[simp] theorem callTo_control (s : State) (p : Word) : (s.callTo p).control = s.control :=
  (withPc_control _ _).trans (push_control _ _)

@[simp] theorem returnTo_control (s : State) : s.returnTo.control = s.control := by
  rw [returnTo_eq]; rfl

/-- RETN and RETI copy IFF2 to IFF1 and touch nothing else of the control part (48_jump_call R371, R372). -/
@[simp] theorem returnFromInterrupt_control (s : State) :
    s.returnFromInterrupt.control = { s.control with iff1 := s.iff2 } := rfl

/-! ### Taking an interrupt (60_exceptions R430, R432) -/

theorem enterInterrupt_control (s : State) :
    s.enterInterrupt.control = { s.control with halted := false, r := s.rInc.r } := by
  cases h : s.halted <;> simp only [State.enterInterrupt, h, push_control] <;>
    simp [State.control, State.rInc, h]

theorem acceptNmi_control (s : State) : s.acceptNmi.control =
    { s.control with nmiPending := false, halted := false, iff1 := false, r := s.rInc.r } := by
  have last (u : State) : State.control ({ u with iff1 := false, pc := 0x0066 }.took 11) =
      { u.control with iff1 := false } := rfl
  exact (last _).trans (by rw [enterInterrupt_control]; rfl)

theorem vectorIm2_control (s : State) (v : Byte) : (s.vectorIm2 v).control = s.control := by
  unfold State.vectorIm2
  dsimp only
  rw [took_control, withPc_control, readWordAt_control, withDraws_control]

theorem acceptInt_control (s : State) (v : Byte) : (s.acceptInt v).control =
    { s.control with halted := false, iff1 := false, iff2 := false, r := s.rInc.r } := by
  have last (u : State) : State.control { u with iff1 := false, iff2 := false } =
      { u.control with iff1 := false, iff2 := false } := rfl
  have jump (u : State) : u.vector38.control = u.control := rfl
  have h : (s.acceptInt v).control =
      State.control { s.enterInterrupt with iff1 := false, iff2 := false } := by
    unfold State.acceptInt
    dsimp only
    split
    · exact jump _
    · exact jump _
    · exact vectorIm2_control _ _
  rw [h, last, enterInterrupt_control]

/-! ### Memory -/

theorem writeAt_wf {s : State} (p : Word) (v : Byte) (h : Memory.wf s.mem = true) :
    Memory.wf (s.writeAt p v).mem = true := memSet_wf p v h

theorem writeWordAt_wf {s : State} (p v : Word) (h : Memory.wf s.mem = true) :
    Memory.wf (s.writeWordAt p v).mem = true := writeAt_wf _ _ (writeAt_wf _ _ h)

theorem push_wf {s : State} (v : Word) (h : Memory.wf s.mem = true) : Memory.wf (s.push v).mem = true := by
  rw [push_eq]; exact memSet_wf _ _ (memSet_wf _ _ h)

theorem modifyAt_wf {s : State} (a : Word) (op : Byte → Byte → Byte × Byte) (h : Memory.wf s.mem = true) :
    Memory.wf (s.modifyAt a op).mem = true := memSet_wf _ _ h

theorem modifyAtCopy_wf {s : State} (a : Word) (r : Reg8) (op : Byte → Byte → Byte × Byte)
    (h : Memory.wf s.mem = true) : Memory.wf (s.modifyAtCopy a r op).mem = true := by
  rw [modifyAtCopy_eq]; exact memSet_wf _ _ h

theorem enterInterrupt_wf {s : State} (h : Memory.wf s.mem = true) : Memory.wf s.enterInterrupt.mem = true := by
  unfold State.enterInterrupt
  dsimp only
  split
  · exact push_wf _ h
  · exact push_wf _ h

theorem acceptNmi_wf {s : State} (h : Memory.wf s.mem = true) : Memory.wf s.acceptNmi.mem = true := by
  have h1 : Memory.wf { s with nmiPending := false }.mem = true := h
  have last (u : State) : State.mem ({ u with iff1 := false, pc := 0x0066 }.took 11) = u.mem := rfl
  unfold State.acceptNmi
  rw [last]
  exact enterInterrupt_wf h1

theorem acceptInt_wf {s : State} (v : Byte) (h : Memory.wf s.mem = true) :
    Memory.wf (s.acceptInt v).mem = true := by
  have jump (u : State) : u.vector38.mem = u.mem := rfl
  have vector (u : State) : (u.vectorIm2 v).mem = u.mem := rfl
  unfold State.acceptInt
  dsimp only
  split
  · rw [jump]; exact enterInterrupt_wf h
  · rw [jump]; exact enterInterrupt_wf h
  · rw [vector]; exact enterInterrupt_wf h

end Sys2Proof.Machine
end

