-- ==== Sys2Proof/Laws/PerInstr.lean ====
section
/-! SUPPORT. The family Bytes, one lemma per constructor of Instr: an instruction has at least one opcode fetch
and no more opcode fetches than bytes, and its first byte is the one that its kind has: 0xCB, 0xED, 0xDD or 0xFD
for a prefixed instruction, none of these for a base instruction (30_encoding R104, R105). -/

namespace Sys2Proof.Laws.Bytes

open Sys2Proof.Machine (m1_bounds)

/-- The kind that a first byte selects. -/
def kindOf (b : Byte) : Lead :=
  if b = 0xCB then .cb else if b = 0xED then .ed else if b = 0xDD then .index else if b = 0xFD then .index
  else .plain

/-- What the family states of an instruction. -/
def Statement (i : Instr) : Prop :=
  1 ≤ i.m1 ∧ i.m1 ≤ i.size ∧ ∃ b rest, encode i = b :: rest ∧ kindOf b = i.lead

/-- The statement from the first byte. -/
theorem statement_of {i : Instr} {b : Byte} {rest : List Byte} (h : encode i = b :: rest)
    (hk : kindOf b = i.lead) : Statement i :=
  ⟨(m1_bounds i).1, (m1_bounds i).2, b, rest, h, hk⟩

/-- The first byte of an index prefix. -/
theorem kindOf_lead (x : XR) : kindOf x.lead = .index := by cases x <;> decide

theorem nop : Statement .nop := statement_of rfl rfl

theorem ldPairNn (rr : Pair) (nn : Word) : Statement (.ldPairNn rr nn) := by
  refine statement_of rfl ?_
  cases rr <;> rfl

theorem ldPtrA (rr : PtrPair) : Statement (.ldPtrA rr) := by
  refine statement_of rfl ?_
  cases rr <;> rfl

theorem ldMemHl (nn : Word) : Statement (.ldMemHl nn) := statement_of rfl rfl

theorem ldMemA (nn : Word) : Statement (.ldMemA nn) := statement_of rfl rfl

theorem incPair (rr : Pair) : Statement (.incPair rr) := by
  refine statement_of rfl ?_
  cases rr <;> rfl

theorem decPair (rr : Pair) : Statement (.decPair rr) := by
  refine statement_of rfl ?_
  cases rr <;> rfl

theorem incReg (r : Reg8) : Statement (.incReg r) := by
  refine statement_of rfl ?_
  cases r <;> rfl

theorem incAtHl : Statement .incAtHl := statement_of rfl rfl

theorem decReg (r : Reg8) : Statement (.decReg r) := by
  refine statement_of rfl ?_
  cases r <;> rfl

theorem decAtHl : Statement .decAtHl := statement_of rfl rfl

theorem ldRegN (r : Reg8) (n : Byte) : Statement (.ldRegN r n) := by
  refine statement_of rfl ?_
  cases r <;> rfl

theorem ldAtHlN (n : Byte) : Statement (.ldAtHlN n) := statement_of rfl rfl

theorem rlca : Statement .rlca := statement_of rfl rfl

theorem rrca : Statement .rrca := statement_of rfl rfl

theorem rla : Statement .rla := statement_of rfl rfl

theorem rra : Statement .rra := statement_of rfl rfl

theorem daa : Statement .daa := statement_of rfl rfl

theorem cpl : Statement .cpl := statement_of rfl rfl

theorem scf : Statement .scf := statement_of rfl rfl

theorem ccf : Statement .ccf := statement_of rfl rfl

theorem exAfAf : Statement .exAfAf := statement_of rfl rfl

theorem addHlPair (rr : Pair) : Statement (.addHlPair rr) := by
  refine statement_of rfl ?_
  cases rr <;> rfl

theorem ldAPtr (rr : PtrPair) : Statement (.ldAPtr rr) := by
  refine statement_of rfl ?_
  cases rr <;> rfl

theorem ldHlMem (nn : Word) : Statement (.ldHlMem nn) := statement_of rfl rfl

theorem ldAMem (nn : Word) : Statement (.ldAMem nn) := statement_of rfl rfl

theorem djnz (e : Byte) : Statement (.djnz e) := statement_of rfl rfl

theorem jr (e : Byte) : Statement (.jr e) := statement_of rfl rfl

theorem jrCond (cc : JrCond) (e : Byte) : Statement (.jrCond cc e) := by
  refine statement_of rfl ?_
  cases cc <;> rfl

theorem ldRegReg (r : Reg8) (r' : Reg8) : Statement (.ldRegReg r r') := by
  refine statement_of rfl ?_
  cases r <;> cases r' <;> rfl

theorem ldRegAtHl (r : Reg8) : Statement (.ldRegAtHl r) := by
  refine statement_of rfl ?_
  cases r <;> rfl

theorem ldAtHlReg (r : Reg8) : Statement (.ldAtHlReg r) := by
  refine statement_of rfl ?_
  cases r <;> rfl

theorem halt : Statement .halt := statement_of rfl rfl

theorem addReg (r : Reg8) : Statement (.addReg r) := by
  refine statement_of rfl ?_
  cases r <;> rfl

theorem addAtHl : Statement .addAtHl := statement_of rfl rfl

theorem addN (n : Byte) : Statement (.addN n) := statement_of rfl rfl

theorem adcReg (r : Reg8) : Statement (.adcReg r) := by
  refine statement_of rfl ?_
  cases r <;> rfl

theorem adcAtHl : Statement .adcAtHl := statement_of rfl rfl

theorem adcN (n : Byte) : Statement (.adcN n) := statement_of rfl rfl

theorem subReg (r : Reg8) : Statement (.subReg r) := by
  refine statement_of rfl ?_
  cases r <;> rfl

theorem subAtHl : Statement .subAtHl := statement_of rfl rfl

theorem subN (n : Byte) : Statement (.subN n) := statement_of rfl rfl

theorem sbcReg (r : Reg8) : Statement (.sbcReg r) := by
  refine statement_of rfl ?_
  cases r <;> rfl

theorem sbcAtHl : Statement .sbcAtHl := statement_of rfl rfl

theorem sbcN (n : Byte) : Statement (.sbcN n) := statement_of rfl rfl

theorem andReg (r : Reg8) : Statement (.andReg r) := by
  refine statement_of rfl ?_
  cases r <;> rfl

theorem andAtHl : Statement .andAtHl := statement_of rfl rfl

theorem andN (n : Byte) : Statement (.andN n) := statement_of rfl rfl

theorem xorReg (r : Reg8) : Statement (.xorReg r) := by
  refine statement_of rfl ?_
  cases r <;> rfl

theorem xorAtHl : Statement .xorAtHl := statement_of rfl rfl

theorem xorN (n : Byte) : Statement (.xorN n) := statement_of rfl rfl

theorem orReg (r : Reg8) : Statement (.orReg r) := by
  refine statement_of rfl ?_
  cases r <;> rfl

theorem orAtHl : Statement .orAtHl := statement_of rfl rfl

theorem orN (n : Byte) : Statement (.orN n) := statement_of rfl rfl

theorem cpReg (r : Reg8) : Statement (.cpReg r) := by
  refine statement_of rfl ?_
  cases r <;> rfl

theorem cpAtHl : Statement .cpAtHl := statement_of rfl rfl

theorem cpN (n : Byte) : Statement (.cpN n) := statement_of rfl rfl

theorem retCond (cc : Cond) : Statement (.retCond cc) := by
  refine statement_of rfl ?_
  cases cc <;> rfl

theorem popPair (qq : StackPair) : Statement (.popPair qq) := by
  refine statement_of rfl ?_
  cases qq <;> rfl

theorem jpCond (cc : Cond) (nn : Word) : Statement (.jpCond cc nn) := by
  refine statement_of rfl ?_
  cases cc <;> rfl

theorem jp (nn : Word) : Statement (.jp nn) := statement_of rfl rfl

theorem callCond (cc : Cond) (nn : Word) : Statement (.callCond cc nn) := by
  refine statement_of rfl ?_
  cases cc <;> rfl

theorem pushPair (qq : StackPair) : Statement (.pushPair qq) := by
  refine statement_of rfl ?_
  cases qq <;> rfl

theorem rst (t : BitVec 3) : Statement (.rst t) := by
  refine statement_of rfl ?_
  revert t
  decide

theorem ret : Statement .ret := statement_of rfl rfl

theorem call (nn : Word) : Statement (.call nn) := statement_of rfl rfl

theorem outNA (n : Byte) : Statement (.outNA n) := statement_of rfl rfl

theorem inAN (n : Byte) : Statement (.inAN n) := statement_of rfl rfl

theorem exx : Statement .exx := statement_of rfl rfl

theorem exSpHl : Statement .exSpHl := statement_of rfl rfl

theorem jpHl : Statement .jpHl := statement_of rfl rfl

theorem exDeHl : Statement .exDeHl := statement_of rfl rfl

theorem di : Statement .di := statement_of rfl rfl

theorem ldSpHl : Statement .ldSpHl := statement_of rfl rfl

theorem ei : Statement .ei := statement_of rfl rfl

theorem prefixCB (op : Byte) : Statement (.prefixCB op) := statement_of rfl rfl

theorem prefixED (op : Byte) : Statement (.prefixED op) := statement_of rfl rfl

theorem prefixDD (op : Byte) : Statement (.prefixDD op) := statement_of rfl rfl

theorem prefixFD (op : Byte) : Statement (.prefixFD op) := statement_of rfl rfl

theorem rlcReg (r : Reg8) : Statement (.rlcReg r) := statement_of rfl rfl

theorem rlcAtHl : Statement .rlcAtHl := statement_of rfl rfl

theorem rrcReg (r : Reg8) : Statement (.rrcReg r) := statement_of rfl rfl

theorem rrcAtHl : Statement .rrcAtHl := statement_of rfl rfl

theorem rlReg (r : Reg8) : Statement (.rlReg r) := statement_of rfl rfl

theorem rlAtHl : Statement .rlAtHl := statement_of rfl rfl

theorem rrReg (r : Reg8) : Statement (.rrReg r) := statement_of rfl rfl

theorem rrAtHl : Statement .rrAtHl := statement_of rfl rfl

theorem slaReg (r : Reg8) : Statement (.slaReg r) := statement_of rfl rfl

theorem slaAtHl : Statement .slaAtHl := statement_of rfl rfl

theorem sraReg (r : Reg8) : Statement (.sraReg r) := statement_of rfl rfl

theorem sraAtHl : Statement .sraAtHl := statement_of rfl rfl

theorem sllReg (r : Reg8) : Statement (.sllReg r) := statement_of rfl rfl

theorem sllAtHl : Statement .sllAtHl := statement_of rfl rfl

theorem srlReg (r : Reg8) : Statement (.srlReg r) := statement_of rfl rfl

theorem srlAtHl : Statement .srlAtHl := statement_of rfl rfl

theorem bitReg (b : BitVec 3) (r : Reg8) : Statement (.bitReg b r) := statement_of rfl rfl

theorem bitAtHl (b : BitVec 3) : Statement (.bitAtHl b) := statement_of rfl rfl

theorem resReg (b : BitVec 3) (r : Reg8) : Statement (.resReg b r) := statement_of rfl rfl

theorem resAtHl (b : BitVec 3) : Statement (.resAtHl b) := statement_of rfl rfl

theorem setReg (b : BitVec 3) (r : Reg8) : Statement (.setReg b r) := statement_of rfl rfl

theorem setAtHl (b : BitVec 3) : Statement (.setAtHl b) := statement_of rfl rfl

theorem inRegC (r : Reg8) : Statement (.inRegC r) := statement_of rfl rfl

theorem inFC : Statement .inFC := statement_of rfl rfl

theorem outCReg (r : Reg8) : Statement (.outCReg r) := statement_of rfl rfl

theorem outC0 : Statement .outC0 := statement_of rfl rfl

theorem sbcHlPair (rr : Pair) : Statement (.sbcHlPair rr) := statement_of rfl rfl

theorem adcHlPair (rr : Pair) : Statement (.adcHlPair rr) := statement_of rfl rfl

theorem ldMemPair (nn : Word) (rr : Pair) : Statement (.ldMemPair nn rr) := statement_of rfl rfl

theorem ldPairMem (rr : Pair) (nn : Word) : Statement (.ldPairMem rr nn) := statement_of rfl rfl

theorem neg (y : BitVec 3) : Statement (.neg y) := statement_of rfl rfl

theorem retn (y : BitVec 3) : Statement (.retn y) := statement_of rfl rfl

theorem reti : Statement .reti := statement_of rfl rfl

theorem im0 (y : BitVec 3) : Statement (.im0 y) := statement_of rfl rfl

theorem im1 (y : BitVec 3) : Statement (.im1 y) := statement_of rfl rfl

theorem im2 (y : BitVec 3) : Statement (.im2 y) := statement_of rfl rfl

theorem ldIA : Statement .ldIA := statement_of rfl rfl

theorem ldRA : Statement .ldRA := statement_of rfl rfl

theorem ldAI : Statement .ldAI := statement_of rfl rfl

theorem ldAR : Statement .ldAR := statement_of rfl rfl

theorem rrd : Statement .rrd := statement_of rfl rfl

theorem rld : Statement .rld := statement_of rfl rfl

theorem ldi : Statement .ldi := statement_of rfl rfl

theorem cpi : Statement .cpi := statement_of rfl rfl

theorem ini : Statement .ini := statement_of rfl rfl

theorem outi : Statement .outi := statement_of rfl rfl

theorem ldd : Statement .ldd := statement_of rfl rfl

theorem cpd : Statement .cpd := statement_of rfl rfl

theorem ind : Statement .ind := statement_of rfl rfl

theorem outd : Statement .outd := statement_of rfl rfl

theorem ldir : Statement .ldir := statement_of rfl rfl

theorem cpir : Statement .cpir := statement_of rfl rfl

theorem inir : Statement .inir := statement_of rfl rfl

theorem otir : Statement .otir := statement_of rfl rfl

theorem lddr : Statement .lddr := statement_of rfl rfl

theorem cpdr : Statement .cpdr := statement_of rfl rfl

theorem indr : Statement .indr := statement_of rfl rfl

theorem otdr : Statement .otdr := statement_of rfl rfl

theorem addXrPair (x : XR) (pp : IdxPair) : Statement (.addXrPair x pp) := statement_of rfl (kindOf_lead x)

theorem ldXrNn (x : XR) (nn : Word) : Statement (.ldXrNn x nn) := statement_of rfl (kindOf_lead x)

theorem ldMemXr (x : XR) (nn : Word) : Statement (.ldMemXr x nn) := statement_of rfl (kindOf_lead x)

theorem incXr (x : XR) : Statement (.incXr x) := statement_of rfl (kindOf_lead x)

theorem decXr (x : XR) : Statement (.decXr x) := statement_of rfl (kindOf_lead x)

theorem ldXrMem (x : XR) (nn : Word) : Statement (.ldXrMem x nn) := statement_of rfl (kindOf_lead x)

theorem incXrHalf (x : XR) (p : Half) : Statement (.incXrHalf x p) := statement_of rfl (kindOf_lead x)

theorem decXrHalf (x : XR) (p : Half) : Statement (.decXrHalf x p) := statement_of rfl (kindOf_lead x)

theorem ldXrHalfN (x : XR) (p : Half) (n : Byte) : Statement (.ldXrHalfN x p n) :=
    statement_of rfl (kindOf_lead x)

theorem incAtXr (x : XR) (d : Byte) : Statement (.incAtXr x d) := statement_of rfl (kindOf_lead x)

theorem decAtXr (x : XR) (d : Byte) : Statement (.decAtXr x d) := statement_of rfl (kindOf_lead x)

theorem ldAtXrN (x : XR) (d : Byte) (n : Byte) : Statement (.ldAtXrN x d n) :=
    statement_of rfl (kindOf_lead x)

theorem ldRegRegXr (x : XR) (r : Reg8) (r' : Reg8) : Statement (.ldRegRegXr x r r') :=
    statement_of rfl (kindOf_lead x)

theorem ldRegAtXr (x : XR) (r : Reg8) (d : Byte) : Statement (.ldRegAtXr x r d) :=
    statement_of rfl (kindOf_lead x)

theorem ldAtXrReg (x : XR) (d : Byte) (r : Reg8) : Statement (.ldAtXrReg x d r) :=
    statement_of rfl (kindOf_lead x)

theorem addXrHalf (x : XR) (p : Half) : Statement (.addXrHalf x p) := statement_of rfl (kindOf_lead x)

theorem addAtXr (x : XR) (d : Byte) : Statement (.addAtXr x d) := statement_of rfl (kindOf_lead x)

theorem adcXrHalf (x : XR) (p : Half) : Statement (.adcXrHalf x p) := statement_of rfl (kindOf_lead x)

theorem adcAtXr (x : XR) (d : Byte) : Statement (.adcAtXr x d) := statement_of rfl (kindOf_lead x)

theorem subXrHalf (x : XR) (p : Half) : Statement (.subXrHalf x p) := statement_of rfl (kindOf_lead x)

theorem subAtXr (x : XR) (d : Byte) : Statement (.subAtXr x d) := statement_of rfl (kindOf_lead x)

theorem sbcXrHalf (x : XR) (p : Half) : Statement (.sbcXrHalf x p) := statement_of rfl (kindOf_lead x)

theorem sbcAtXr (x : XR) (d : Byte) : Statement (.sbcAtXr x d) := statement_of rfl (kindOf_lead x)

theorem andXrHalf (x : XR) (p : Half) : Statement (.andXrHalf x p) := statement_of rfl (kindOf_lead x)

theorem andAtXr (x : XR) (d : Byte) : Statement (.andAtXr x d) := statement_of rfl (kindOf_lead x)

theorem xorXrHalf (x : XR) (p : Half) : Statement (.xorXrHalf x p) := statement_of rfl (kindOf_lead x)

theorem xorAtXr (x : XR) (d : Byte) : Statement (.xorAtXr x d) := statement_of rfl (kindOf_lead x)

theorem orXrHalf (x : XR) (p : Half) : Statement (.orXrHalf x p) := statement_of rfl (kindOf_lead x)

theorem orAtXr (x : XR) (d : Byte) : Statement (.orAtXr x d) := statement_of rfl (kindOf_lead x)

theorem cpXrHalf (x : XR) (p : Half) : Statement (.cpXrHalf x p) := statement_of rfl (kindOf_lead x)

theorem cpAtXr (x : XR) (d : Byte) : Statement (.cpAtXr x d) := statement_of rfl (kindOf_lead x)

theorem prefixXrCB (x : XR) (d : Byte) (op : Byte) : Statement (.prefixXrCB x d op) :=
    statement_of rfl (kindOf_lead x)

theorem popXr (x : XR) : Statement (.popXr x) := statement_of rfl (kindOf_lead x)

theorem pushXr (x : XR) : Statement (.pushXr x) := statement_of rfl (kindOf_lead x)

theorem exSpXr (x : XR) : Statement (.exSpXr x) := statement_of rfl (kindOf_lead x)

theorem jpXr (x : XR) : Statement (.jpXr x) := statement_of rfl (kindOf_lead x)

theorem ldSpXr (x : XR) : Statement (.ldSpXr x) := statement_of rfl (kindOf_lead x)

theorem prefixXrXr (x : XR) (i : Instr) : Statement (.prefixXrXr x i) := statement_of rfl (kindOf_lead x)

theorem prefixXrED (x : XR) (i : Instr) : Statement (.prefixXrED x i) := statement_of rfl (kindOf_lead x)

theorem prefixXrPass (x : XR) (i : Instr) : Statement (.prefixXrPass x i) := statement_of rfl (kindOf_lead x)

theorem rlcAtXr (x : XR) (d : Byte) : Statement (.rlcAtXr x d) := statement_of rfl (kindOf_lead x)

theorem rlcAtXrReg (x : XR) (d : Byte) (r : Reg8) : Statement (.rlcAtXrReg x d r) :=
    statement_of rfl (kindOf_lead x)

theorem rrcAtXr (x : XR) (d : Byte) : Statement (.rrcAtXr x d) := statement_of rfl (kindOf_lead x)

theorem rrcAtXrReg (x : XR) (d : Byte) (r : Reg8) : Statement (.rrcAtXrReg x d r) :=
    statement_of rfl (kindOf_lead x)

theorem rlAtXr (x : XR) (d : Byte) : Statement (.rlAtXr x d) := statement_of rfl (kindOf_lead x)

theorem rlAtXrReg (x : XR) (d : Byte) (r : Reg8) : Statement (.rlAtXrReg x d r) :=
    statement_of rfl (kindOf_lead x)

theorem rrAtXr (x : XR) (d : Byte) : Statement (.rrAtXr x d) := statement_of rfl (kindOf_lead x)

theorem rrAtXrReg (x : XR) (d : Byte) (r : Reg8) : Statement (.rrAtXrReg x d r) :=
    statement_of rfl (kindOf_lead x)

theorem slaAtXr (x : XR) (d : Byte) : Statement (.slaAtXr x d) := statement_of rfl (kindOf_lead x)

theorem slaAtXrReg (x : XR) (d : Byte) (r : Reg8) : Statement (.slaAtXrReg x d r) :=
    statement_of rfl (kindOf_lead x)

theorem sraAtXr (x : XR) (d : Byte) : Statement (.sraAtXr x d) := statement_of rfl (kindOf_lead x)

theorem sraAtXrReg (x : XR) (d : Byte) (r : Reg8) : Statement (.sraAtXrReg x d r) :=
    statement_of rfl (kindOf_lead x)

theorem sllAtXr (x : XR) (d : Byte) : Statement (.sllAtXr x d) := statement_of rfl (kindOf_lead x)

theorem sllAtXrReg (x : XR) (d : Byte) (r : Reg8) : Statement (.sllAtXrReg x d r) :=
    statement_of rfl (kindOf_lead x)

theorem srlAtXr (x : XR) (d : Byte) : Statement (.srlAtXr x d) := statement_of rfl (kindOf_lead x)

theorem srlAtXrReg (x : XR) (d : Byte) (r : Reg8) : Statement (.srlAtXrReg x d r) :=
    statement_of rfl (kindOf_lead x)

theorem bitAtXr (x : XR) (d : Byte) (b : BitVec 3) (z : BitVec 3) : Statement (.bitAtXr x d b z) :=
    statement_of rfl (kindOf_lead x)

theorem resAtXr (x : XR) (d : Byte) (b : BitVec 3) : Statement (.resAtXr x d b) :=
    statement_of rfl (kindOf_lead x)

theorem resAtXrReg (x : XR) (d : Byte) (b : BitVec 3) (r : Reg8) : Statement (.resAtXrReg x d b r) :=
    statement_of rfl (kindOf_lead x)

theorem setAtXr (x : XR) (d : Byte) (b : BitVec 3) : Statement (.setAtXr x d b) :=
    statement_of rfl (kindOf_lead x)

theorem setAtXrReg (x : XR) (d : Byte) (b : BitVec 3) (r : Reg8) : Statement (.setAtXrReg x d b r) :=
    statement_of rfl (kindOf_lead x)

end Sys2Proof.Laws.Bytes
end

