-- ==== Sys2Proof/Laws/Run.lean ====
section
/-! SUPPORT. The ends of a run, said once (60_exceptions R451). -/

namespace Sys2Proof.Machine

/-- A state is no end and neither faulted nor quiescent, or it is faulted, or it is quiescent. -/
theorem ending_cases (s : State) :
    (s.ending = none ∧ ¬ Faulted s ∧ ¬ Quiescent s) ∨ (s.ending = some .faulted ∧ Faulted s) ∨
      (s.ending = some .quiescent ∧ Quiescent s) := by
  unfold Faulted Quiescent State.ending
  cases s.fault with
  | some r => simp
  | none => cases s.halted <;> cases s.iff1 <;> cases s.nmiPending <;> simp

theorem ending_of_quiescent {s : State} (h : Quiescent s) : s.ending = some .quiescent := by
  obtain ⟨hf, hh, hi, hn⟩ := h
  simp [State.ending, hf, hh, hi, hn]

theorem ending_of_faulted {s : State} (h : Faulted s) : s.ending = some .faulted := by
  simp [State.ending, show s.fault.isSome = true from h]

/-- One more move. -/
theorem runEnd_cons (m : Move) (rest : List Move) (s : State) : runEnd (m :: rest) s =
    if s.atEnd (m :: rest) then some s
    else
      match move m s with
      | .next t => runEnd rest t
      | .fault _ => none
      | .refused _ => none := rfl

/-- At an end the run is over, whatever moves are to come. -/
theorem runEnd_of_atEnd {moves : List Move} {s : State} (h : s.atEnd moves = true) :
    runEnd moves s = some s := by
  cases moves with
  | nil => simp [runEnd, h]
  | cons m rest => simp [runEnd_cons, h]

/-- The observation of a quiescent state. -/
theorem observation_of_quiescent {s : State} (h : Quiescent s) : s.observation = some { s with
    r := 0, tstates := none, bus := [], draws := 0, intLine := false, busByte := 0 } := by
  simp [State.observation, ending_of_quiescent h]

end Sys2Proof.Machine
end

