-- ==== Sys2Proof/Laws/Step.lean ====
section
/-! SUPPORT. What a step can do, said once: the four outcomes of 60_exceptions R420. -/

namespace Sys2Proof.Machine

theorem step_of_fault {s : State} {r : FaultRecord} (h : s.fault = some r) : step s = .fault .faulted := by
  simp [step, State.tick, h]

theorem step_of_nmi {s : State} (hf : s.fault = none) (hn : s.nmiPending = true) :
    step s = .next s.beginStep.acceptNmi := by
  simp [step, State.tick, State.advance, hf, hn]

theorem step_of_int {s : State} (hf : s.fault = none) (hn : s.nmiPending = false) (hi : s.acceptsInt = true) :
    step s = .next (s.beginStep.acceptInt s.busByte) := by
  simp [step, State.tick, State.advance, hf, hn, hi]

theorem step_of_halted {s : State} (hf : s.fault = none) (hn : s.nmiPending = false)
    (hi : s.acceptsInt = false) (hh : s.halted = true) : step s = .next s.beginStep.tickEi.haltedStep := by
  simp [step, State.tick, State.advance, hf, hn, hi, hh]

theorem step_of_instr {s : State} {i : Instr} (hf : s.fault = none) (hn : s.nmiPending = false)
    (hi : s.acceptsInt = false) (hh : s.halted = false) (hd : s.instrAt s.pc = .ok i) :
    step s = settleFault s (exec i (s.beginStep.tickEi.fetched i)) := by
  simp [step, State.tick, State.advance, hf, hn, hi, hh, hd]

theorem step_of_endless {s : State} {e : DecodeError} (hf : s.fault = none) (hn : s.nmiPending = false)
    (hi : s.acceptsInt = false) (hh : s.halted = false) (hd : s.instrAt s.pc = .error e) :
    step s = .fault .endlessPrefixRun := by
  simp [step, State.tick, State.advance, hf, hn, hi, hh, hd]

/-- A step that answers a next state starts with no fault and is an NMI acceptance, a maskable acceptance, a
halted step or one instruction. -/
theorem step_cases {s t : State} (h : step s = .next t) : s.fault = none ∧
    ((s.nmiPending = true ∧ t = s.beginStep.acceptNmi) ∨
      (s.nmiPending = false ∧ s.acceptsInt = true ∧ t = s.beginStep.acceptInt s.busByte) ∨
      (s.nmiPending = false ∧ s.acceptsInt = false ∧ s.halted = true ∧ t = s.beginStep.tickEi.haltedStep) ∨
      (s.nmiPending = false ∧ s.acceptsInt = false ∧ s.halted = false ∧
        ∃ i, s.instrAt s.pc = .ok i ∧ settleFault s (exec i (s.beginStep.tickEi.fetched i)) = .next t)) := by
  cases hf : s.fault with
  | some r => simp [step_of_fault hf] at h
  | none =>
    refine ⟨rfl, ?_⟩
    cases hn : s.nmiPending with
    | true => exact .inl ⟨rfl, by simpa [step_of_nmi hf hn] using h.symm⟩
    | false =>
      cases hi : s.acceptsInt with
      | true => exact .inr (.inl ⟨rfl, rfl, by simpa [step_of_int hf hn hi] using h.symm⟩)
      | false =>
        cases hh : s.halted with
        | true => exact .inr (.inr (.inl ⟨rfl, rfl, rfl, by simpa [step_of_halted hf hn hi hh] using h.symm⟩))
        | false =>
          cases hd : s.instrAt s.pc with
          | error e => simp [step_of_endless hf hn hi hh hd] at h
          | ok i => exact .inr (.inr (.inr ⟨rfl, rfl, rfl, i, rfl, by rw [← step_of_instr hf hn hi hh hd, h]⟩))

end Sys2Proof.Machine
end

