-- ==== Sys2Proof/Tests/Slice0.lean ====
section
/-! SUPPORT. The model's own tests: a word of every constructor decoded, the spec's test vectors one step each,
an ill-formed term for each check of WellFormed, and a witness for the hypotheses of every statement. -/

namespace Sys2Proof.Tests

open Sys2Proof Sys2Proof.Machine

set_option Elab.async false

/-! ### Decoding

Every constructor's word, its opcode byte written out in binary from the encoding of its row (30_encoding R106
to R115 and the field tables of R102), its operand bytes after it. -/

/-- These bytes are this instruction, with nothing left over. -/
def reads (bytes : List Byte) (i : Instr) : Bool :=
  match decode bytes with
  | .ok (j, []) => j == i
  | _ => false

/-- 40_load8 R140 to R157, base table. -/
theorem test_decode_load8_base :
    reads [0b00010010] (.ldPtrA .de) ∧
    reads [0b00110010, 0x07, 0x1C] (.ldMemA 0x1C07) ∧
    reads [0b00100110, 0xD4] (.ldRegN .h 0xD4) ∧
    reads [0b00110110, 0xDB] (.ldAtHlN 0xDB) ∧
    reads [0b00001010] (.ldAPtr .bc) ∧
    reads [0b00111010, 0x4A, 0x45] (.ldAMem 0x454A) ∧
    reads [0b01010111] (.ldRegReg .d .a) ∧
    reads [0b01101110] (.ldRegAtHl .l) ∧
    reads [0b01110101] (.ldAtHlReg .l) := by
  decide +kernel

/-- 40_load8 R140 to R157, ED table. -/
theorem test_decode_load8_ed :
    reads [0xED, 0b01000111] .ldIA ∧
    reads [0xED, 0b01001111] .ldRA ∧
    reads [0xED, 0b01010111] .ldAI ∧
    reads [0xED, 0b01011111] .ldAR := by
  decide +kernel

/-- 40_load8 R140 to R157, XY table. -/
theorem test_decode_load8_index :
    reads [0xFD, 0b00100110, 0x62] (.ldXrHalfN .iy .hi 0x62) ∧
    reads [0xDD, 0b00110110, 0x77, 0x77] (.ldAtXrN .ix 0x77 0x77) ∧
    reads [0xFD, 0b01100101] (.ldRegRegXr .iy .h .l) ∧
    reads [0xDD, 0b01011110, 0x85] (.ldRegAtXr .ix .e 0x85) ∧
    reads [0xFD, 0b01110011, 0x8C] (.ldAtXrReg .iy 0x8C .e) := by
  decide +kernel

/-- 41_load16 R170 to R183, base table. -/
theorem test_decode_load16_base :
    reads [0b00100001, 0x22, 0x16] (.ldPairNn .hl 0x1622) ∧
    reads [0b00100010, 0x10, 0x1A] (.ldMemHl 0x1A10) ∧
    reads [0b00101010, 0x53, 0x43] (.ldHlMem 0x4353) ∧
    reads [0b11110001] (.popPair .af) ∧
    reads [0b11110101] (.pushPair .af) ∧
    reads [0b11111001] .ldSpHl := by
  decide +kernel

/-- 41_load16 R170 to R183, ED table. -/
theorem test_decode_load16_ed :
    reads [0xED, 0b01000011, 0x8C, 0xDE] (.ldMemPair 0xDE8C .bc) ∧
    reads [0xED, 0b01011011, 0x83, 0xE0] (.ldPairMem .de 0xE083) := by
  decide +kernel

/-- 41_load16 R170 to R183, XY table. -/
theorem test_decode_load16_index :
    reads [0xDD, 0b00100001, 0x75, 0x1B] (.ldXrNn .ix 0x1B75) ∧
    reads [0xFD, 0b00100010, 0x6C, 0x1D] (.ldMemXr .iy 0x1D6C) ∧
    reads [0xDD, 0b00101010, 0x51, 0x23] (.ldXrMem .ix 0x2351) ∧
    reads [0xDD, 0b11100001] (.popXr .ix) ∧
    reads [0xFD, 0b11100101] (.pushXr .iy) ∧
    reads [0xDD, 0b11111001] (.ldSpXr .ix) := by
  decide +kernel

/-- 42_exchange_block R200 to R212, base table. -/
theorem test_decode_exchange_block_base :
    reads [0b00001000] .exAfAf ∧
    reads [0b11011001] .exx ∧
    reads [0b11100011] .exSpHl ∧
    reads [0b11101011] .exDeHl := by
  decide +kernel

/-- 42_exchange_block R200 to R212, ED table. -/
theorem test_decode_exchange_block_ed :
    reads [0xED, 0b10100000] .ldi ∧
    reads [0xED, 0b10100001] .cpi ∧
    reads [0xED, 0b10101000] .ldd ∧
    reads [0xED, 0b10101001] .cpd ∧
    reads [0xED, 0b10110000] .ldir ∧
    reads [0xED, 0b10110001] .cpir ∧
    reads [0xED, 0b10111000] .lddr ∧
    reads [0xED, 0b10111001] .cpdr := by
  decide +kernel

/-- 42_exchange_block R200 to R212, XY table. -/
theorem test_decode_exchange_block_index :
    reads [0xDD, 0b11100011] (.exSpXr .ix) := by
  decide +kernel

/-- 43_alu8 R230 to R242, base table. -/
theorem test_decode_alu8_base :
    reads [0b00111100] (.incReg .a) ∧
    reads [0b00110100] .incAtHl ∧
    reads [0b00101101] (.decReg .l) ∧
    reads [0b00110101] .decAtHl ∧
    reads [0b10000100] (.addReg .h) ∧
    reads [0b10000110] .addAtHl ∧
    reads [0b11000110, 0x7C] (.addN 0x7C) ∧
    reads [0b10001111] (.adcReg .a) ∧
    reads [0b10001110] .adcAtHl ∧
    reads [0b11001110, 0x91] (.adcN 0x91) ∧
    reads [0b10010001] (.subReg .c) ∧
    reads [0b10010110] .subAtHl ∧
    reads [0b11010110, 0xA6] (.subN 0xA6) ∧
    reads [0b10011011] (.sbcReg .e) ∧
    reads [0b10011110] .sbcAtHl ∧
    reads [0b11011110, 0xBB] (.sbcN 0xBB) ∧
    reads [0b10100101] (.andReg .l) ∧
    reads [0b10100110] .andAtHl ∧
    reads [0b11100110, 0xD0] (.andN 0xD0) ∧
    reads [0b10101000] (.xorReg .b) ∧
    reads [0b10101110] .xorAtHl ∧
    reads [0b11101110, 0xE5] (.xorN 0xE5) ∧
    reads [0b10110010] (.orReg .d) ∧
    reads [0b10110110] .orAtHl ∧
    reads [0b11110110, 0xFA] (.orN 0xFA) ∧
    reads [0b10111100] (.cpReg .h) ∧
    reads [0b10111110] .cpAtHl ∧
    reads [0b11111110, 0x0F] (.cpN 0x0F) := by
  decide +kernel

/-- 43_alu8 R230 to R242, XY table. -/
theorem test_decode_alu8_index :
    reads [0xFD, 0b00100100] (.incXrHalf .iy .hi) ∧
    reads [0xDD, 0b00101101] (.decXrHalf .ix .lo) ∧
    reads [0xDD, 0b00110100, 0x69] (.incAtXr .ix 0x69) ∧
    reads [0xFD, 0b00110101, 0x70] (.decAtXr .iy 0x70) ∧
    reads [0xDD, 0b10000101] (.addXrHalf .ix .lo) ∧
    reads [0xFD, 0b10000110, 0x9A] (.addAtXr .iy 0x9A) ∧
    reads [0xDD, 0b10001101] (.adcXrHalf .ix .lo) ∧
    reads [0xFD, 0b10001110, 0xA8] (.adcAtXr .iy 0xA8) ∧
    reads [0xDD, 0b10010101] (.subXrHalf .ix .lo) ∧
    reads [0xFD, 0b10010110, 0xB6] (.subAtXr .iy 0xB6) ∧
    reads [0xDD, 0b10011101] (.sbcXrHalf .ix .lo) ∧
    reads [0xFD, 0b10011110, 0xC4] (.sbcAtXr .iy 0xC4) ∧
    reads [0xDD, 0b10100101] (.andXrHalf .ix .lo) ∧
    reads [0xFD, 0b10100110, 0xD2] (.andAtXr .iy 0xD2) ∧
    reads [0xDD, 0b10101101] (.xorXrHalf .ix .lo) ∧
    reads [0xFD, 0b10101110, 0xE0] (.xorAtXr .iy 0xE0) ∧
    reads [0xDD, 0b10110101] (.orXrHalf .ix .lo) ∧
    reads [0xFD, 0b10110110, 0xEE] (.orAtXr .iy 0xEE) ∧
    reads [0xDD, 0b10111101] (.cpXrHalf .ix .lo) ∧
    reads [0xFD, 0b10111110, 0xFC] (.cpAtXr .iy 0xFC) := by
  decide +kernel

/-- 44_general R260 to R270, base table. -/
theorem test_decode_general_base :
    reads [0b00000000] .nop ∧
    reads [0b00100111] .daa ∧
    reads [0b00101111] .cpl ∧
    reads [0b00110111] .scf ∧
    reads [0b00111111] .ccf ∧
    reads [0b01110110] .halt ∧
    reads [0b11110011] .di ∧
    reads [0b11111011] .ei := by
  decide +kernel

/-- 44_general R260 to R270, ED table. -/
theorem test_decode_general_ed :
    reads [0xED, 0b01101100] (.neg 5) ∧
    reads [0xED, 0b01101110] (.im0 5) ∧
    reads [0xED, 0b01110110] (.im1 6) ∧
    reads [0xED, 0b01111110] (.im2 7) := by
  decide +kernel

/-- 45_alu16 R290 to R299, base table. -/
theorem test_decode_alu16_base :
    reads [0b00100011] (.incPair .hl) ∧
    reads [0b00111011] (.decPair .sp) ∧
    reads [0b00111001] (.addHlPair .sp) := by
  decide +kernel

/-- 45_alu16 R290 to R299, ED table. -/
theorem test_decode_alu16_ed :
    reads [0xED, 0b01100010] (.sbcHlPair .hl) ∧
    reads [0xED, 0b01111010] (.adcHlPair .sp) := by
  decide +kernel

/-- 45_alu16 R290 to R299, XY table. -/
theorem test_decode_alu16_index :
    reads [0xFD, 0b00101001] (.addXrPair .iy .xr) ∧
    reads [0xDD, 0b00100011] (.incXr .ix) ∧
    reads [0xFD, 0b00101011] (.decXr .iy) := by
  decide +kernel

/-- 46_rotate_shift R310 to R324, base table. -/
theorem test_decode_rotate_base :
    reads [0b00000111] .rlca ∧
    reads [0b00001111] .rrca ∧
    reads [0b00010111] .rla ∧
    reads [0b00011111] .rra := by
  decide +kernel

/-- 46_rotate_shift R310 to R324, CB table. -/
theorem test_decode_rotate_cb :
    reads [0xCB, 0b00000100] (.rlcReg .h) ∧
    reads [0xCB, 0b00000110] .rlcAtHl ∧
    reads [0xCB, 0b00001011] (.rrcReg .e) ∧
    reads [0xCB, 0b00001110] .rrcAtHl ∧
    reads [0xCB, 0b00010010] (.rlReg .d) ∧
    reads [0xCB, 0b00010110] .rlAtHl ∧
    reads [0xCB, 0b00011001] (.rrReg .c) ∧
    reads [0xCB, 0b00011110] .rrAtHl ∧
    reads [0xCB, 0b00100000] (.slaReg .b) ∧
    reads [0xCB, 0b00100110] .slaAtHl ∧
    reads [0xCB, 0b00101111] (.sraReg .a) ∧
    reads [0xCB, 0b00101110] .sraAtHl ∧
    reads [0xCB, 0b00110101] (.sllReg .l) ∧
    reads [0xCB, 0b00110110] .sllAtHl ∧
    reads [0xCB, 0b00111100] (.srlReg .h) ∧
    reads [0xCB, 0b00111110] .srlAtHl := by
  decide +kernel

/-- 46_rotate_shift R310 to R324, ED table. -/
theorem test_decode_rotate_ed :
    reads [0xED, 0b01100111] .rrd ∧
    reads [0xED, 0b01101111] .rld := by
  decide +kernel

/-- 46_rotate_shift R310 to R324, XYCB table. -/
theorem test_decode_rotate_xycb :
    reads [0xFD, 0xCB, 0x26, 0b00000110] (.rlcAtXr .iy 0x26) ∧
    reads [0xDD, 0xCB, 0x2D, 0b00000010] (.rlcAtXrReg .ix 0x2D .d) ∧
    reads [0xFD, 0xCB, 0x34, 0b00001110] (.rrcAtXr .iy 0x34) ∧
    reads [0xDD, 0xCB, 0x3B, 0b00001001] (.rrcAtXrReg .ix 0x3B .c) ∧
    reads [0xFD, 0xCB, 0x42, 0b00010110] (.rlAtXr .iy 0x42) ∧
    reads [0xDD, 0xCB, 0x49, 0b00010000] (.rlAtXrReg .ix 0x49 .b) ∧
    reads [0xFD, 0xCB, 0x50, 0b00011110] (.rrAtXr .iy 0x50) ∧
    reads [0xDD, 0xCB, 0x57, 0b00011111] (.rrAtXrReg .ix 0x57 .a) ∧
    reads [0xFD, 0xCB, 0x5E, 0b00100110] (.slaAtXr .iy 0x5E) ∧
    reads [0xDD, 0xCB, 0x65, 0b00100101] (.slaAtXrReg .ix 0x65 .l) ∧
    reads [0xFD, 0xCB, 0x6C, 0b00101110] (.sraAtXr .iy 0x6C) ∧
    reads [0xDD, 0xCB, 0x73, 0b00101100] (.sraAtXrReg .ix 0x73 .h) ∧
    reads [0xFD, 0xCB, 0x7A, 0b00110110] (.sllAtXr .iy 0x7A) ∧
    reads [0xDD, 0xCB, 0x81, 0b00110011] (.sllAtXrReg .ix 0x81 .e) ∧
    reads [0xFD, 0xCB, 0x88, 0b00111110] (.srlAtXr .iy 0x88) ∧
    reads [0xDD, 0xCB, 0x8F, 0b00111010] (.srlAtXrReg .ix 0x8F .d) := by
  decide +kernel

/-- 47_bit R340 to R348, CB table. -/
theorem test_decode_bit_cb :
    reads [0xCB, 0b01111011] (.bitReg 7 .e) ∧
    reads [0xCB, 0b01100110] (.bitAtHl 4) ∧
    reads [0xCB, 0b10001010] (.resReg 1 .d) ∧
    reads [0xCB, 0b10110110] (.resAtHl 6) ∧
    reads [0xCB, 0b11011001] (.setReg 3 .c) ∧
    reads [0xCB, 0b11000110] (.setAtHl 0) := by
  decide +kernel

/-- 47_bit R340 to R348, XYCB table. -/
theorem test_decode_bit_xycb :
    reads [0xFD, 0xCB, 0x96, 0b01101111] (.bitAtXr .iy 0x96 5 7) ∧
    reads [0xDD, 0xCB, 0x9D, 0b10010110] (.resAtXr .ix 0x9D 2) ∧
    reads [0xFD, 0xCB, 0xA4, 0b10111100] (.resAtXrReg .iy 0xA4 7 .h) ∧
    reads [0xDD, 0xCB, 0xAB, 0b11100110] (.setAtXr .ix 0xAB 4) ∧
    reads [0xFD, 0xCB, 0xB2, 0b11001011] (.setAtXrReg .iy 0xB2 1 .e) := by
  decide +kernel

/-- 48_jump_call R360 to R373, base table. -/
theorem test_decode_jump_base :
    reads [0b00010000, 0x3D] (.djnz 0x3D) ∧
    reads [0b00011000, 0x44] (.jr 0x44) ∧
    reads [0b00110000, 0x4B] (.jrCond .nc 0x4B) ∧
    reads [0b11011000] (.retCond .c) ∧
    reads [0b11101010, 0x18, 0x88] (.jpCond .pe 0x8818) ∧
    reads [0b11000011, 0x0F, 0x8A] (.jp 0x8A0F) ∧
    reads [0b11111100, 0x06, 0x8C] (.callCond .m 0x8C06) ∧
    reads [0b11011111] (.rst 3) ∧
    reads [0b11001001] .ret ∧
    reads [0b11001101, 0xE2, 0x93] (.call 0x93E2) ∧
    reads [0b11101001] .jpHl := by
  decide +kernel

/-- 48_jump_call R360 to R373, ED table. -/
theorem test_decode_jump_ed :
    reads [0xED, 0b01011101] (.retn 3) ∧
    reads [0xED, 0b01001101] .reti := by
  decide +kernel

/-- 48_jump_call R360 to R373, XY table. -/
theorem test_decode_jump_index :
    reads [0xFD, 0b11101001] (.jpXr .iy) := by
  decide +kernel

/-- 49_io R390 to R403, base table. -/
theorem test_decode_io_base :
    reads [0b11010011, 0x55] (.outNA 0x55) ∧
    reads [0b11011011, 0x5C] (.inAN 0x5C) := by
  decide +kernel

/-- 49_io R390 to R403, ED table. -/
theorem test_decode_io_ed :
    reads [0xED, 0b01011000] (.inRegC .e) ∧
    reads [0xED, 0b01110000] .inFC ∧
    reads [0xED, 0b01010001] (.outCReg .d) ∧
    reads [0xED, 0b01110001] .outC0 ∧
    reads [0xED, 0b10100010] .ini ∧
    reads [0xED, 0b10100011] .outi ∧
    reads [0xED, 0b10101010] .ind ∧
    reads [0xED, 0b10101011] .outd ∧
    reads [0xED, 0b10110010] .inir ∧
    reads [0xED, 0b10110011] .otir ∧
    reads [0xED, 0b10111010] .indr ∧
    reads [0xED, 0b10111011] .otdr := by
  decide +kernel

/-- The rows of the prefix bytes (30_encoding R108, R112, R113, R114; log entry 15). -/
theorem test_decode_prefix_rows :
    reads [0xED, 0b00000000] (.prefixED 0x00) ∧
    reads [0xED, 0b01110111] (.prefixED 0x77) ∧
    reads [0xDD, 0xFD, 0b00100011] (.prefixXrXr .ix (.incXr .iy)) ∧
    reads [0xFD, 0xED, 0b01010000] (.prefixXrED .iy (.inRegC .d)) ∧
    reads [0xDD, 0b00000110, 0x99] (.prefixXrPass .ix (.ldRegN .b 0x99)) := by
  decide +kernel

/-- The entries of the prefix rows that the tables hold rows for decode to these (30_encoding R107, R110, R115):
prefix CB, prefix ED, prefix DD, prefix FD and prefix CB after DD or FD. -/
theorem test_decode_prefix_entries :
    reads [0xCB, 0b00001001] (.rrcReg .c) ∧ reads [0xED, 0b01111010] (.adcHlPair .sp) ∧
    reads [0xDD, 0b11100001] (.popXr .ix) ∧ reads [0xFD, 0b11100001] (.popXr .iy) ∧
    reads [0xDD, 0xCB, 0x05, 0b00011110] (.rrAtXr .ix 0x05) := by
  decide +kernel

/-- With UNDOC_UNIMPL = {(IX, 0x24)} that entry is its prefix row, and the one of IY is not
(30_encoding R116; vector V60.12). -/
theorem test_decode_undoc :
    (match decodeWith [(.ix, 0x24)] [0xDD, 0x24] with | .ok (i, []) => i == .prefixDD 0x24 | _ => false) = true ∧
    (match decodeWith [(.iy, 0x24)] [0xFD, 0x24] with | .ok (i, []) => i == .prefixFD 0x24 | _ => false) = true ∧
    (match decodeWith [(.ix, 0x24)] [0xFD, 0x24] with | .ok (i, []) => i == .incXrHalf .iy .hi | _ => false) = true := by
  decide +kernel

/-- Bytes that end inside an instruction are refused by name (30_encoding R117). -/
theorem test_decode_truncated :
    (match decode [0x21, 0x34] with | .error .truncated => true | _ => false) = true ∧
    (match decode [0xDD, 0xCB, 0x01] with | .error .truncated => true | _ => false) = true := by
  decide +kernel

/-- Opcode-table words, the host's numbering: NOP, LD BC,nn with a zero operand, JP nn (log entry 19). -/
theorem test_table_words :
    (decodeTableWord 8 0x00 == some .nop) = true ∧ (decodeTableWord 8 0x01 == some (.ldPairNn .bc 0)) = true ∧
    (decodeTableWord 24 0x1234C3 == some (.jp 0x1234)) = true := by
  decide +kernel

/-! ### One step

The vectors of 95_test_vectors, each one step: `run` places the bytes at PC and steps once. Flags, registers and
bytes are the vector's; nothing here comes from the model. -/

/-- Bytes of memory at addresses of their own. -/
def poke (s : State) (cells : List (Word × Byte)) : State :=
  { s with mem := cells.foldl (fun m cell => memSet m cell.1.toNat cell.2) s.mem }

/-- One step with an instruction's bytes at PC. -/
def run (bytes : List Byte) (s : State) : Option State :=
  match step (State.storeBytes bytes s.pc s) with
  | .next t => some t
  | .fault _ => none
  | .refused _ => none

/-- E4: ADD HL,BC. -/
theorem test_E4 : (run [0x09] { State.reset with h := 0x42, l := 0x42, b := 0x11, c := 0x11 }).any fun t =>
      t.h == 0x53 && t.l == 0x53 && t.pc == 0x0001 && t.r == 0x01 && t.tstates == some 11 := by
  decide +kernel

/-- E5.28: CP A. -/
theorem test_E5_28 : (run [0xBF] { State.reset with a := 0x28, f := 0x01 }).any fun t =>
      t.f == 0x6A && t.pc == 0x0001 && t.r == 0x01 && t.tstates == some 4 := by
  decide +kernel

/-- E7b: HALT (first step of E7c). -/
theorem test_E7b : (run [0x76]
    { State.reset with pc := 0x0100, sp := 0x8000, iff1 := true, iff2 := true, im := .im1 }).any fun t =>
      t.r == 0x01 && t.halted == true && t.tstates == some 4 := by
  decide +kernel

/-- V40.1: LD B,C. -/
theorem test_V40_1 : (run [0x41] { State.reset with b := 0x00, c := 0x99 }).any fun t =>
      t.b == 0x99 && t.pc == 0x0001 && t.r == 0x01 && t.tstates == some 4 := by
  decide +kernel

/-- V40.2: LD A,A (same register). -/
theorem test_V40_2 : (run [0x7F] { State.reset with a := 0x5A }).any fun t =>
      t.pc == 0x0001 && t.r == 0x01 && t.tstates == some 4 := by
  decide +kernel

/-- V40.3: LD H,0xC3. -/
theorem test_V40_3 : (run [0x26, 0xC3] State.reset).any fun t =>
      t.h == 0xC3 && t.pc == 0x0002 && t.r == 0x01 && t.tstates == some 7 := by
  decide +kernel

/-- V40.4: LD A,(HL). -/
theorem test_V40_4 : (run [0x7E]
    (poke { State.reset with h := 0x80, l := 0x00 } [(0x8000, 0x11)])).any fun t =>
      t.a == 0x11 && t.pc == 0x0001 && t.r == 0x01 && t.tstates == some 7 := by
  decide +kernel

/-- V40.5: LD (HL),0x00 at the top address. -/
theorem test_V40_5 : (run [0x36, 0x00]
    (poke { State.reset with h := 0xFF, l := 0xFF } [(0xFFFF, 0x77)])).any fun t =>
      t.pc == 0x0002 && t.r == 0x01 && t.byteAt 0xFFFF == 0x00 && t.tstates == some 10 := by
  decide +kernel

/-- V40.6: LD A,(IX-128), address wraps below 0. -/
theorem test_V40_6 : (run [0xDD, 0x7E, 0x80]
    (poke { State.reset with ix := 0x0010 } [(0xFF90, 0x42)])).any fun t =>
      t.a == 0x42 && t.pc == 0x0003 && t.r == 0x02 && t.tstates == some 19 := by
  decide +kernel

/-- V40.7: LD (IY+127),B, address wraps above 0xFFFF. -/
theorem test_V40_7 : (run [0xFD, 0x70, 0x7F] { State.reset with iy := 0xFFF0, b := 0x5B }).any fun t =>
      t.pc == 0x0003 && t.r == 0x02 && t.byteAt 0x006F == 0x5B && t.tstates == some 19 := by
  decide +kernel

/-- V40.8: LD (IX-2),0x99 (d before n). -/
theorem test_V40_8 : (run [0xDD, 0x36, 0xFE, 0x99] { State.reset with ix := 0x3002 }).any fun t =>
      t.pc == 0x0004 && t.r == 0x02 && t.byteAt 0x3000 == 0x99 && t.tstates == some 19 := by
  decide +kernel

/-- V40.9: LD H,(IX+1): H, not IXH. -/
theorem test_V40_9 : (run [0xDD, 0x66, 0x01]
    (poke { State.reset with ix := 0x4000 } [(0x4001, 0xAB)])).any fun t =>
      t.h == 0xAB && t.pc == 0x0003 && t.r == 0x02 && t.tstates == some 19 := by
  decide +kernel

/-- V40.10: LD IXH,0x12. -/
theorem test_V40_10 : (run [0xDD, 0x26, 0x12] { State.reset with ix := 0x00FF }).any fun t =>
      t.ix == 0x12FF && t.pc == 0x0003 && t.r == 0x02 && t.tstates == some 11 := by
  decide +kernel

/-- V40.11: LD IYL,IYH. -/
theorem test_V40_11 : (run [0xFD, 0x6C] { State.reset with iy := 0xAB00 }).any fun t =>
      t.iy == 0xABAB && t.pc == 0x0002 && t.r == 0x02 && t.tstates == some 8 := by
  decide +kernel

/-- V40.12: LD A,(BC). -/
theorem test_V40_12 : (run [0x0A]
    (poke { State.reset with b := 0x12, c := 0x34 } [(0x1234, 0x9C)])).any fun t =>
      t.a == 0x9C && t.pc == 0x0001 && t.r == 0x01 && t.tstates == some 7 := by
  decide +kernel

/-- V40.13: LD A,(0xFFFF). -/
theorem test_V40_13 : (run [0x3A, 0xFF, 0xFF] (poke .reset [(0xFFFF, 0x3C)])).any fun t =>
      t.a == 0x3C && t.pc == 0x0003 && t.r == 0x01 && t.tstates == some 13 := by
  decide +kernel

/-- V40.14: LD A,I: zero, IFF2=0. -/
theorem test_V40_14 : (run [0xED, 0x57]
    { State.reset with i := 0x00, iff2 := false, f := 0x01 }).any fun t =>
      t.f == 0x41 && t.pc == 0x0002 && t.r == 0x02 && t.tstates == some 9 := by
  decide +kernel

/-- V40.15: LD A,R: R7 kept, low 7 bits wrap. -/
theorem test_V40_15 : (run [0xED, 0x5F] { State.reset with r := 0xFE, iff2 := true }).any fun t =>
      t.a == 0x80 && t.f == 0x84 && t.pc == 0x0002 && t.r == 0x80 && t.tstates == some 9 := by
  decide +kernel

/-- V40.16: LD R,A. -/
theorem test_V40_16 : (run [0xED, 0x4F] { State.reset with a := 0xFF }).any fun t =>
      t.pc == 0x0002 && t.r == 0xFF && t.tstates == some 9 := by
  decide +kernel

/-- V40.17: LD B,B with an ignored DD prefix. -/
theorem test_V40_17 : (run [0xDD, 0x40] { State.reset with b := 0x12 }).any fun t =>
      t.pc == 0x0002 && t.r == 0x02 && t.tstates == some 8 := by
  decide +kernel

/-- V41.1: LD BC,0x1234. -/
theorem test_V41_1 : (run [0x01, 0x34, 0x12] State.reset).any fun t =>
      t.b == 0x12 && t.c == 0x34 && t.pc == 0x0003 && t.r == 0x01 && t.tstates == some 10 := by
  decide +kernel

/-- V41.2: LD HL,(0xFFFF): high byte from 0x0000. -/
theorem test_V41_2 : (run [0x2A, 0xFF, 0xFF] (poke .reset [(0x0000, 0x2A), (0xFFFF, 0xCD)])).any fun t =>
      t.h == 0x2A && t.l == 0xCD && t.pc == 0x0003 && t.r == 0x01 && t.tstates == some 16 := by
  decide +kernel

/-- V41.3: LD (0x5000),SP. -/
theorem test_V41_3 : (run [0xED, 0x73, 0x00, 0x50] { State.reset with sp := 0xBEEF }).any fun t =>
      t.pc == 0x0004 && t.r == 0x02 && t.byteAt 0x5000 == 0xEF && t.byteAt 0x5001 == 0xBE &&
      t.tstates == some 20 := by
  decide +kernel

/-- V41.4: LD HL,(0x5000) (ED form). -/
theorem test_V41_4 : (run [0xED, 0x6B, 0x00, 0x50]
    (poke .reset [(0x5000, 0x01), (0x5001, 0x02)])).any fun t =>
      t.h == 0x02 && t.l == 0x01 && t.pc == 0x0004 && t.r == 0x02 && t.tstates == some 20 := by
  decide +kernel

/-- V41.5: LD IY,(0x5000). -/
theorem test_V41_5 : (run [0xFD, 0x2A, 0x00, 0x50]
    (poke .reset [(0x5000, 0x01), (0x5001, 0x02)])).any fun t =>
      t.iy == 0x0201 && t.pc == 0x0004 && t.r == 0x02 && t.tstates == some 20 := by
  decide +kernel

/-- V41.6: LD SP,HL. -/
theorem test_V41_6 : (run [0xF9] { State.reset with h := 0x12, l := 0x34 }).any fun t =>
      t.sp == 0x1234 && t.pc == 0x0001 && t.r == 0x01 && t.tstates == some 6 := by
  decide +kernel

/-- V41.7: PUSH AF with SP = 0 (wraps). -/
theorem test_V41_7 : (run [0xF5] { State.reset with a := 0x12, f := 0xD7, sp := 0x0000 }).any fun t =>
      t.sp == 0xFFFE && t.pc == 0x0001 && t.r == 0x01 && t.byteAt 0xFFFE == 0xD7 &&
      t.byteAt 0xFFFF == 0x12 && t.tstates == some 11 := by
  decide +kernel

/-- V41.8: POP AF with SP = 0xFFFF. -/
theorem test_V41_8 : (run [0xF1]
    (poke { State.reset with sp := 0xFFFF } [(0x0000, 0xF1), (0xFFFF, 0xFF)])).any fun t =>
      t.a == 0xF1 && t.f == 0xFF && t.sp == 0x0001 && t.pc == 0x0001 && t.r == 0x01 &&
      t.tstates == some 10 := by
  decide +kernel

/-- V41.9: PUSH IY. -/
theorem test_V41_9 : (run [0xFD, 0xE5] { State.reset with iy := 0xA55A, sp := 0x8000 }).any fun t =>
      t.sp == 0x7FFE && t.pc == 0x0002 && t.r == 0x02 && t.byteAt 0x7FFE == 0x5A &&
      t.byteAt 0x7FFF == 0xA5 && t.tstates == some 15 := by
  decide +kernel

/-- V41.10: POP IX. -/
theorem test_V41_10 : (run [0xDD, 0xE1]
    (poke { State.reset with sp := 0x7FFE } [(0x7FFE, 0x78), (0x7FFF, 0x56)])).any fun t =>
      t.ix == 0x5678 && t.sp == 0x8000 && t.pc == 0x0002 && t.r == 0x02 && t.tstates == some 14 := by
  decide +kernel

/-- V42.1: EX DE,HL. -/
theorem test_V42_1 : (run [0xEB]
    { State.reset with d := 0x11, e := 0x11, h := 0x22, l := 0x22 }).any fun t =>
      t.d == 0x22 && t.e == 0x22 && t.h == 0x11 && t.l == 0x11 && t.pc == 0x0001 && t.r == 0x01 &&
      t.tstates == some 4 := by
  decide +kernel

/-- V42.2: EX DE,HL with DD: IX untouched. -/
theorem test_V42_2 : (run [0xDD, 0xEB]
    { State.reset with d := 0x11, e := 0x11, h := 0x22, l := 0x22, ix := 0x3333 }).any fun t =>
      t.d == 0x22 && t.e == 0x22 && t.h == 0x11 && t.l == 0x11 && t.pc == 0x0002 && t.r == 0x02 &&
      t.tstates == some 8 := by
  decide +kernel

/-- V42.3: EX AF,AF'. -/
theorem test_V42_3 : (run [0x08]
    { State.reset with a := 0x01, f := 0x02, a' := 0x03, f' := 0x04 }).any fun t =>
      t.a == 0x03 && t.f == 0x04 && t.a' == 0x01 && t.f' == 0x02 && t.pc == 0x0001 && t.r == 0x01 &&
      t.tstates == some 4 := by
  decide +kernel

/-- V42.4: EXX. -/
theorem test_V42_4 : (run [0xD9]
    { State.reset with b := 0x01, c := 0x02, d := 0x03, e := 0x04, h := 0x05, l := 0x06, b' := 0x07, c' := 0x08, d' := 0x09, e' := 0x0A, h' := 0x0B, l' := 0x0C }).any fun t =>
      t.b == 0x07 && t.c == 0x08 && t.d == 0x09 && t.e == 0x0A && t.h == 0x0B && t.l == 0x0C &&
      t.b' == 0x01 && t.c' == 0x02 && t.d' == 0x03 && t.e' == 0x04 && t.h' == 0x05 && t.l' == 0x06 &&
      t.pc == 0x0001 && t.r == 0x01 && t.tstates == some 4 := by
  decide +kernel

/-- V42.5: EX (SP),HL. -/
theorem test_V42_5 : (run [0xE3]
    (poke { State.reset with sp := 0x8000, h := 0xAA, l := 0xBB } [(0x8000, 0x11), (0x8001, 0x22)])).any fun t =>
      t.h == 0x22 && t.l == 0x11 && t.pc == 0x0001 && t.r == 0x01 && t.byteAt 0x8000 == 0xBB &&
      t.byteAt 0x8001 == 0xAA && t.tstates == some 19 := by
  decide +kernel

/-- V42.6: LDI, BC 1 -> 0; S, Z, C kept. -/
theorem test_V42_6 : (run [0xED, 0xA0]
    (poke { State.reset with h := 0x10, l := 0x00, d := 0x20, e := 0x00, b := 0x00, c := 0x01, a := 0x00, f := 0xC1 } [(0x1000, 0x22)])).any fun t =>
      t.f == 0xE1 && t.c == 0x00 && t.e == 0x01 && t.l == 0x01 && t.pc == 0x0002 && t.r == 0x02 &&
      t.byteAt 0x2000 == 0x22 && t.tstates == some 16 := by
  decide +kernel

/-- V42.7: LDI, BC 0 -> 0xFFFF, HL wraps. -/
theorem test_V42_7 : (run [0xED, 0xA0]
    (poke { State.reset with h := 0xFF, l := 0xFF, d := 0x00, e := 0x00, b := 0x00, c := 0x00 } [(0xFFFF, 0x08)])).any fun t =>
      t.f == 0x0C && t.b == 0xFF && t.c == 0xFF && t.e == 0x01 && t.h == 0x00 && t.l == 0x00 &&
      t.pc == 0x0002 && t.r == 0x02 && t.byteAt 0x0000 == 0x08 && t.tstates == some 16 := by
  decide +kernel

/-- V42.8: LDIR, first iteration (repeats). -/
theorem test_V42_8 : (run [0xED, 0xB0]
    (poke { State.reset with pc := 0x0100, h := 0x10, l := 0x00, d := 0x20, e := 0x00, b := 0x00, c := 0x02 } [(0x1000, 0x55)])).any fun t =>
      t.f == 0x04 && t.c == 0x01 && t.e == 0x01 && t.l == 0x01 && t.r == 0x02 &&
      t.byteAt 0x2000 == 0x55 && t.tstates == some 21 := by
  decide +kernel

/-- V42.9: LDIR, last iteration. -/
theorem test_V42_9 : (run [0xED, 0xB0]
    (poke { State.reset with pc := 0x0100, h := 0x10, l := 0x00, d := 0x20, e := 0x00, b := 0x00, c := 0x01 } [(0x1000, 0x55)])).any fun t =>
      t.c == 0x00 && t.e == 0x01 && t.l == 0x01 && t.pc == 0x0102 && t.r == 0x02 &&
      t.byteAt 0x2000 == 0x55 && t.tstates == some 16 := by
  decide +kernel

/-- V42.10: LDDR, first iteration. -/
theorem test_V42_10 : (run [0xED, 0xB8]
    (poke { State.reset with pc := 0x0100, h := 0x10, l := 0x01, d := 0x20, e := 0x01, b := 0x00, c := 0x02 } [(0x1001, 0x66)])).any fun t =>
      t.f == 0x24 && t.c == 0x01 && t.e == 0x00 && t.l == 0x00 && t.r == 0x02 &&
      t.byteAt 0x2001 == 0x66 && t.tstates == some 21 := by
  decide +kernel

/-- V42.11: CPI, no match, H borrow. -/
theorem test_V42_11 : (run [0xED, 0xA1]
    (poke { State.reset with a := 0x10, h := 0x30, l := 0x00, b := 0x00, c := 0x05, f := 0x01 } [(0x3000, 0x01)])).any fun t =>
      t.f == 0x3F && t.c == 0x04 && t.l == 0x01 && t.pc == 0x0002 && t.r == 0x02 &&
      t.tstates == some 16 := by
  decide +kernel

/-- V42.12: CPIR, match with BC != 0: stops, PV = 1. -/
theorem test_V42_12 : (run [0xED, 0xB1]
    (poke { State.reset with pc := 0x0200, a := 0x41, h := 0x30, l := 0x00, b := 0x00, c := 0x05 } [(0x3000, 0x41)])).any fun t =>
      t.f == 0x46 && t.c == 0x04 && t.l == 0x01 && t.pc == 0x0202 && t.r == 0x02 &&
      t.tstates == some 16 := by
  decide +kernel

/-- V42.13: CPIR, no match: repeats. -/
theorem test_V42_13 : (run [0xED, 0xB1]
    (poke { State.reset with pc := 0x0200, a := 0x41, h := 0x30, l := 0x00, b := 0x00, c := 0x05 } [(0x3000, 0x40)])).any fun t =>
      t.f == 0x06 && t.c == 0x04 && t.l == 0x01 && t.r == 0x02 && t.tstates == some 21 := by
  decide +kernel

/-- V42.14: CPD, match and BC -> 0. -/
theorem test_V42_14 : (run [0xED, 0xA9]
    (poke { State.reset with a := 0x00, h := 0x30, l := 0x00, b := 0x00, c := 0x01 } [(0x3000, 0x00)])).any fun t =>
      t.f == 0x42 && t.c == 0x00 && t.h == 0x2F && t.l == 0xFF && t.pc == 0x0002 && t.r == 0x02 &&
      t.tstates == some 16 := by
  decide +kernel

/-- V43.1: ADD A,(HL): half carry. -/
theorem test_V43_1 : (run [0x86]
    (poke { State.reset with a := 0x0F, h := 0x40, l := 0x00 } [(0x4000, 0x01)])).any fun t =>
      t.a == 0x10 && t.f == 0x10 && t.pc == 0x0001 && t.r == 0x01 && t.tstates == some 7 := by
  decide +kernel

/-- V43.2: ADD A,0x80: 0, carry, overflow. -/
theorem test_V43_2 : (run [0xC6, 0x80] { State.reset with a := 0x80 }).any fun t =>
      t.a == 0x00 && t.f == 0x45 && t.pc == 0x0002 && t.r == 0x01 && t.tstates == some 7 := by
  decide +kernel

/-- V43.3: ADC A,0x7F with C = 1: overflow. -/
theorem test_V43_3 : (run [0xCE, 0x7F] { State.reset with a := 0x00, f := 0x01 }).any fun t =>
      t.a == 0x80 && t.f == 0x94 && t.pc == 0x0002 && t.r == 0x01 && t.tstates == some 7 := by
  decide +kernel

/-- V43.4: SUB A (A - A). -/
theorem test_V43_4 : (run [0x97] { State.reset with a := 0x5A }).any fun t =>
      t.a == 0x00 && t.f == 0x42 && t.pc == 0x0001 && t.r == 0x01 && t.tstates == some 4 := by
  decide +kernel

/-- V43.5: SBC A,0 with C = 1. -/
theorem test_V43_5 : (run [0xDE, 0x00] { State.reset with a := 0x00, f := 0x01 }).any fun t =>
      t.a == 0xFF && t.f == 0xBB && t.pc == 0x0002 && t.r == 0x01 && t.tstates == some 7 := by
  decide +kernel

/-- V43.6: SUB (IX+5). -/
theorem test_V43_6 : (run [0xDD, 0x96, 0x05]
    (poke { State.reset with a := 0x20, ix := 0x1000 } [(0x1005, 0x21)])).any fun t =>
      t.a == 0xFF && t.f == 0xBB && t.pc == 0x0003 && t.r == 0x02 && t.tstates == some 19 := by
  decide +kernel

/-- V43.7: AND A on 0: H = 1, C = 0. -/
theorem test_V43_7 : (run [0xA7] { State.reset with a := 0x00, f := 0xFF }).any fun t =>
      t.f == 0x54 && t.pc == 0x0001 && t.r == 0x01 && t.tstates == some 4 := by
  decide +kernel

/-- V43.8: XOR A. -/
theorem test_V43_8 : (run [0xAF] { State.reset with a := 0xFF, f := 0xFF }).any fun t =>
      t.a == 0x00 && t.f == 0x44 && t.pc == 0x0001 && t.r == 0x01 && t.tstates == some 4 := by
  decide +kernel

/-- V43.9: OR C on 0. -/
theorem test_V43_9 : (run [0xB1] { State.reset with a := 0x00, c := 0x00 }).any fun t =>
      t.f == 0x44 && t.pc == 0x0001 && t.r == 0x01 && t.tstates == some 4 := by
  decide +kernel

/-- V43.10: CP A (the source's CP A,A). -/
theorem test_V43_10 : (run [0xBF] { State.reset with a := 0x37 }).any fun t =>
      t.f == 0x62 && t.pc == 0x0001 && t.r == 0x01 && t.tstates == some 4 := by
  decide +kernel

/-- V43.11: CP 0x28: X, Y from the operand. -/
theorem test_V43_11 : (run [0xFE, 0x28] { State.reset with a := 0x00 }).any fun t =>
      t.f == 0xBB && t.pc == 0x0002 && t.r == 0x01 && t.tstates == some 7 := by
  decide +kernel

/-- V43.12: CP 0x01: overflow. -/
theorem test_V43_12 : (run [0xFE, 0x01] { State.reset with a := 0x80 }).any fun t =>
      t.f == 0x16 && t.pc == 0x0002 && t.r == 0x01 && t.tstates == some 7 := by
  decide +kernel

/-- V43.13: INC A: 0x7F -> 0x80, C kept. -/
theorem test_V43_13 : (run [0x3C] { State.reset with a := 0x7F, f := 0x01 }).any fun t =>
      t.a == 0x80 && t.f == 0x95 && t.pc == 0x0001 && t.r == 0x01 && t.tstates == some 4 := by
  decide +kernel

/-- V43.14: DEC C: 0x00 -> 0xFF. -/
theorem test_V43_14 : (run [0x0D] { State.reset with c := 0x00, f := 0x00 }).any fun t =>
      t.f == 0xBA && t.c == 0xFF && t.pc == 0x0001 && t.r == 0x01 && t.tstates == some 4 := by
  decide +kernel

/-- V43.15: INC (HL). -/
theorem test_V43_15 : (run [0x34]
    (poke { State.reset with h := 0x50, l := 0x00 } [(0x5000, 0x0F)])).any fun t =>
      t.f == 0x10 && t.pc == 0x0001 && t.r == 0x01 && t.byteAt 0x5000 == 0x10 && t.tstates == some 11 := by
  decide +kernel

/-- V43.16: DEC (IY-1) -> 0. -/
theorem test_V43_16 : (run [0xFD, 0x35, 0xFF]
    (poke { State.reset with iy := 0x5001 } [(0x5000, 0x01)])).any fun t =>
      t.f == 0x42 && t.pc == 0x0003 && t.r == 0x02 && t.byteAt 0x5000 == 0x00 && t.tstates == some 23 := by
  decide +kernel

/-- V43.17: ADD A,IXH (undocumented). -/
theorem test_V43_17 : (run [0xDD, 0x84] { State.reset with a := 0x01, ix := 0xFF00 }).any fun t =>
      t.a == 0x00 && t.f == 0x51 && t.pc == 0x0002 && t.r == 0x02 && t.tstates == some 8 := by
  decide +kernel

/-- V43.18: INC IXL (undocumented): IX high byte untouched. -/
theorem test_V43_18 : (run [0xDD, 0x2C] { State.reset with ix := 0x12FF }).any fun t =>
      t.f == 0x50 && t.ix == 0x1200 && t.pc == 0x0002 && t.r == 0x02 && t.tstates == some 8 := by
  decide +kernel

/-- V44.1: DAA after add, 0x9A. -/
theorem test_V44_1 : (run [0x27] { State.reset with a := 0x9A, f := 0x00 }).any fun t =>
      t.a == 0x00 && t.f == 0x55 && t.pc == 0x0001 && t.r == 0x01 && t.tstates == some 4 := by
  decide +kernel

/-- V44.2: DAA after subtract, low nibble > 9. -/
theorem test_V44_2 : (run [0x27] { State.reset with a := 0x0F, f := 0x02 }).any fun t =>
      t.a == 0x09 && t.f == 0x0E && t.pc == 0x0001 && t.r == 0x01 && t.tstates == some 4 := by
  decide +kernel

/-- V44.6: NEG 0x80. -/
theorem test_V44_6 : (run [0xED, 0x44] { State.reset with a := 0x80 }).any fun t =>
      t.f == 0x87 && t.pc == 0x0002 && t.r == 0x02 && t.tstates == some 8 := by
  decide +kernel

/-- V44.7: NEG 0x00. -/
theorem test_V44_7 : (run [0xED, 0x44] { State.reset with a := 0x00 }).any fun t =>
      t.f == 0x42 && t.pc == 0x0002 && t.r == 0x02 && t.tstates == some 8 := by
  decide +kernel

/-- V44.9: CPL. -/
theorem test_V44_9 : (run [0x2F] { State.reset with a := 0x00, f := 0xC5 }).any fun t =>
      t.a == 0xFF && t.f == 0xFF && t.pc == 0x0001 && t.r == 0x01 && t.tstates == some 4 := by
  decide +kernel

/-- V44.10: CCF with C = 0 (from_A). -/
theorem test_V44_10 : (run [0x3F] { State.reset with a := 0xFF, f := 0x00 }).any fun t =>
      t.f == 0x29 && t.pc == 0x0001 && t.r == 0x01 && t.tstates == some 4 := by
  decide +kernel

/-- V44.11: SCF (from_A). -/
theorem test_V44_11 : (run [0x37] { State.reset with a := 0x00, f := 0xFF }).any fun t =>
      t.f == 0xC5 && t.pc == 0x0001 && t.r == 0x01 && t.tstates == some 4 := by
  decide +kernel

/-- V44.12: NOP. -/
theorem test_V44_12 : (run [0x00] State.reset).any fun t =>
      t.pc == 0x0001 && t.r == 0x01 && t.tstates == some 4 := by
  decide +kernel

/-- V44.13: HALT. -/
theorem test_V44_13 : (run [0x76] { State.reset with pc := 0x0200 }).any fun t =>
      t.r == 0x01 && t.halted == true && t.tstates == some 4 := by
  decide +kernel

/-- V44.15: DI. -/
theorem test_V44_15 : (run [0xF3] { State.reset with iff1 := true, iff2 := true }).any fun t =>
      t.pc == 0x0001 && t.r == 0x01 && t.iff1 == false && t.iff2 == false && t.tstates == some 4 := by
  decide +kernel

/-- V44.16: EI. -/
theorem test_V44_16 : (run [0xFB] State.reset).any fun t =>
      t.pc == 0x0001 && t.r == 0x01 && t.iff1 == true && t.iff2 == true && t.eiDelay == 1 &&
      t.tstates == some 4 := by
  decide +kernel

/-- V44.17: IM 2. -/
theorem test_V44_17 : (run [0xED, 0x5E] State.reset).any fun t =>
      t.pc == 0x0002 && t.r == 0x02 && t.im == .im2 && t.tstates == some 8 := by
  decide +kernel

/-- V44.18: IM 1 mirror ED 76. -/
theorem test_V44_18 : (run [0xED, 0x76] { State.reset with im := .im2 }).any fun t =>
      t.pc == 0x0002 && t.r == 0x02 && t.im == .im1 && t.tstates == some 8 := by
  decide +kernel

/-- V44.19: ED 4E (undefined mode) sets IM 0. -/
theorem test_V44_19 : (run [0xED, 0x4E] { State.reset with im := .im1 }).any fun t =>
      t.pc == 0x0002 && t.r == 0x02 && t.im == .im0 && t.tstates == some 8 := by
  decide +kernel

/-- V45.1: ADD HL,HL: carry out; S, Z, PV kept. -/
theorem test_V45_1 : (run [0x29] { State.reset with h := 0x80, l := 0x00, f := 0xC4 }).any fun t =>
      t.f == 0xC5 && t.h == 0x00 && t.pc == 0x0001 && t.r == 0x01 && t.tstates == some 11 := by
  decide +kernel

/-- V45.3: ADC HL,SP: overflow. -/
theorem test_V45_3 : (run [0xED, 0x7A]
    { State.reset with h := 0x7F, l := 0xFF, sp := 0x0000, f := 0x01 }).any fun t =>
      t.f == 0x94 && t.h == 0x80 && t.l == 0x00 && t.pc == 0x0002 && t.r == 0x02 &&
      t.tstates == some 15 := by
  decide +kernel

/-- V45.4: SBC HL,HL with C = 1. -/
theorem test_V45_4 : (run [0xED, 0x62] { State.reset with h := 0x12, l := 0x34, f := 0x01 }).any fun t =>
      t.f == 0xBB && t.h == 0xFF && t.l == 0xFF && t.pc == 0x0002 && t.r == 0x02 &&
      t.tstates == some 15 := by
  decide +kernel

/-- V45.5: SBC HL,DE: zero. -/
theorem test_V45_5 : (run [0xED, 0x52]
    { State.reset with h := 0x12, l := 0x34, d := 0x12, e := 0x34, f := 0x00 }).any fun t =>
      t.f == 0x42 && t.h == 0x00 && t.l == 0x00 && t.pc == 0x0002 && t.r == 0x02 &&
      t.tstates == some 15 := by
  decide +kernel

/-- V45.6: ADD IY,IY. -/
theorem test_V45_6 : (run [0xFD, 0x29] { State.reset with iy := 0x4000 }).any fun t =>
      t.iy == 0x8000 && t.pc == 0x0002 && t.r == 0x02 && t.tstates == some 15 := by
  decide +kernel

/-- V45.7: INC BC: wraps, F kept. -/
theorem test_V45_7 : (run [0x03] { State.reset with b := 0xFF, c := 0xFF, f := 0xFF }).any fun t =>
      t.b == 0x00 && t.c == 0x00 && t.pc == 0x0001 && t.r == 0x01 && t.tstates == some 6 := by
  decide +kernel

/-- V45.8: DEC SP. -/
theorem test_V45_8 : (run [0x3B] { State.reset with sp := 0x0000 }).any fun t =>
      t.sp == 0xFFFF && t.pc == 0x0001 && t.r == 0x01 && t.tstates == some 6 := by
  decide +kernel

/-- V45.9: INC IX. -/
theorem test_V45_9 : (run [0xDD, 0x23] { State.reset with ix := 0xFFFF }).any fun t =>
      t.ix == 0x0000 && t.pc == 0x0002 && t.r == 0x02 && t.tstates == some 10 := by
  decide +kernel

/-- V46.1: RLCA of 0: S, Z, PV kept. -/
theorem test_V46_1 : (run [0x07] { State.reset with a := 0x00, f := 0xC4 }).any fun t =>
      t.pc == 0x0001 && t.r == 0x01 && t.tstates == some 4 := by
  decide +kernel

/-- V46.2: RLA with C = 1. -/
theorem test_V46_2 : (run [0x17] { State.reset with a := 0x00, f := 0x01 }).any fun t =>
      t.a == 0x01 && t.f == 0x00 && t.pc == 0x0001 && t.r == 0x01 && t.tstates == some 4 := by
  decide +kernel

/-- V46.3: RRA. -/
theorem test_V46_3 : (run [0x1F] { State.reset with a := 0x01, f := 0x00 }).any fun t =>
      t.a == 0x00 && t.f == 0x01 && t.pc == 0x0001 && t.r == 0x01 && t.tstates == some 4 := by
  decide +kernel

/-- V46.4: RLC (HL). -/
theorem test_V46_4 : (run [0xCB, 0x06]
    (poke { State.reset with h := 0x60, l := 0x00 } [(0x6000, 0x80)])).any fun t =>
      t.f == 0x01 && t.pc == 0x0002 && t.r == 0x02 && t.byteAt 0x6000 == 0x01 && t.tstates == some 15 := by
  decide +kernel

/-- V46.5: SRA B: sign kept. -/
theorem test_V46_5 : (run [0xCB, 0x28] { State.reset with b := 0x80 }).any fun t =>
      t.f == 0x84 && t.b == 0xC0 && t.pc == 0x0002 && t.r == 0x02 && t.tstates == some 8 := by
  decide +kernel

/-- V46.6: SLL B of 0 -> 1. -/
theorem test_V46_6 : (run [0xCB, 0x30] { State.reset with b := 0x00 }).any fun t =>
      t.b == 0x01 && t.pc == 0x0002 && t.r == 0x02 && t.tstates == some 8 := by
  decide +kernel

/-- V46.7: SRL A. -/
theorem test_V46_7 : (run [0xCB, 0x3F] { State.reset with a := 0x80 }).any fun t =>
      t.a == 0x40 && t.pc == 0x0002 && t.r == 0x02 && t.tstates == some 8 := by
  decide +kernel

/-- V46.8: RL C with C = 1. -/
theorem test_V46_8 : (run [0xCB, 0x11] { State.reset with c := 0x80, f := 0x01 }).any fun t =>
      t.c == 0x01 && t.pc == 0x0002 && t.r == 0x02 && t.tstates == some 8 := by
  decide +kernel

/-- V46.9: RLC (IX+1),B (undocumented copy). -/
theorem test_V46_9 : (run [0xDD, 0xCB, 0x01, 0x00]
    (poke { State.reset with ix := 0x6000 } [(0x6001, 0x81)])).any fun t =>
      t.f == 0x05 && t.b == 0x03 && t.pc == 0x0004 && t.r == 0x02 && t.byteAt 0x6001 == 0x03 &&
      t.tstates == some 23 := by
  decide +kernel

/-- V46.10: RLC (IX+1). -/
theorem test_V46_10 : (run [0xDD, 0xCB, 0x01, 0x06]
    (poke { State.reset with ix := 0x6000 } [(0x6001, 0x81)])).any fun t =>
      t.f == 0x05 && t.pc == 0x0004 && t.r == 0x02 && t.byteAt 0x6001 == 0x03 && t.tstates == some 23 := by
  decide +kernel

/-- V46.11: RLD. -/
theorem test_V46_11 : (run [0xED, 0x6F]
    (poke { State.reset with a := 0xF0, h := 0x60, l := 0x00 } [(0x6000, 0x0F)])).any fun t =>
      t.f == 0xA4 && t.pc == 0x0002 && t.r == 0x02 && t.byteAt 0x6000 == 0xF0 && t.tstates == some 18 := by
  decide +kernel

/-- V46.12: RRD of zeros: Z, PV set, C kept. -/
theorem test_V46_12 : (run [0xED, 0x67]
    (poke { State.reset with a := 0x00, h := 0x60, l := 0x00, f := 0x01 } [(0x6000, 0x00)])).any fun t =>
      t.f == 0x45 && t.pc == 0x0002 && t.r == 0x02 && t.tstates == some 18 := by
  decide +kernel

/-- V47.1: BIT 3,A on a set bit: X from A. -/
theorem test_V47_1 : (run [0xCB, 0x5F] { State.reset with a := 0x08, f := 0x01 }).any fun t =>
      t.f == 0x19 && t.pc == 0x0002 && t.r == 0x02 && t.tstates == some 8 := by
  decide +kernel

/-- V47.2: BIT 7,B on a clear bit. -/
theorem test_V47_2 : (run [0xCB, 0x78] { State.reset with b := 0x7F }).any fun t =>
      t.f == 0x7C && t.pc == 0x0002 && t.r == 0x02 && t.tstates == some 8 := by
  decide +kernel

/-- V47.3: BIT 7,(IY+2): X, Y from ea high byte 0x10. -/
theorem test_V47_3 : (run [0xFD, 0xCB, 0x02, 0x7E]
    (poke { State.reset with iy := 0x1000 } [(0x1002, 0x80)])).any fun t =>
      t.f == 0x90 && t.pc == 0x0004 && t.r == 0x02 && t.tstates == some 20 := by
  decide +kernel

/-- V47.4: BIT 7,(IY+2) with zzz = 000: same, no copy. -/
theorem test_V47_4 : (run [0xFD, 0xCB, 0x02, 0x78]
    (poke { State.reset with iy := 0x1000 } [(0x1002, 0x80)])).any fun t =>
      t.f == 0x90 && t.pc == 0x0004 && t.r == 0x02 && t.tstates == some 20 := by
  decide +kernel

/-- V47.5: SET 0,(HL) already set: write still happens. -/
theorem test_V47_5 : (run [0xCB, 0xC6]
    (poke { State.reset with h := 0x70, l := 0x00 } [(0x7000, 0x01)])).any fun t =>
      t.pc == 0x0002 && t.r == 0x02 && t.tstates == some 15 := by
  decide +kernel

/-- V47.6: RES 7,A. -/
theorem test_V47_6 : (run [0xCB, 0xBF] { State.reset with a := 0x80 }).any fun t =>
      t.a == 0x00 && t.pc == 0x0002 && t.r == 0x02 && t.tstates == some 8 := by
  decide +kernel

/-- V47.7: SET 7,(IY-1),C (undocumented copy). -/
theorem test_V47_7 : (run [0xFD, 0xCB, 0xFF, 0xF9]
    (poke { State.reset with iy := 0x1001 } [(0x1000, 0x00)])).any fun t =>
      t.c == 0x80 && t.pc == 0x0004 && t.r == 0x02 && t.byteAt 0x1000 == 0x80 && t.tstates == some 23 := by
  decide +kernel

/-- V47.8: SET 6,(IX+3) (the source's example, corrected). -/
theorem test_V47_8 : (run [0xDD, 0xCB, 0x03, 0xF6]
    (poke { State.reset with ix := 0x2000 } [(0x2003, 0xAA)])).any fun t =>
      t.pc == 0x0004 && t.r == 0x02 && t.byteAt 0x2003 == 0xEA && t.tstates == some 23 := by
  decide +kernel

/-- V48.1: JP NZ,0x8000 taken. -/
theorem test_V48_1 : (run [0xC2, 0x00, 0x80] { State.reset with f := 0x00 }).any fun t =>
      t.pc == 0x8000 && t.r == 0x01 && t.tstates == some 10 := by
  decide +kernel

/-- V48.2: JP M,0x8000 not taken. -/
theorem test_V48_2 : (run [0xFA, 0x00, 0x80] { State.reset with f := 0x00 }).any fun t =>
      t.pc == 0x0003 && t.r == 0x01 && t.tstates == some 10 := by
  decide +kernel

/-- V48.4: JR -2 at 0: loops on itself. -/
theorem test_V48_4 : (run [0x18, 0xFE] State.reset).any fun t =>
      t.r == 0x01 && t.tstates == some 12 := by
  decide +kernel

/-- V48.5: JR +127 from 0xFFF0 wraps. -/
theorem test_V48_5 : (run [0x18, 0x7F] { State.reset with pc := 0xFFF0 }).any fun t =>
      t.pc == 0x0071 && t.r == 0x01 && t.tstates == some 12 := by
  decide +kernel

/-- V48.6: JR NZ not taken. -/
theorem test_V48_6 : (run [0x20, 0x10] { State.reset with f := 0x40 }).any fun t =>
      t.pc == 0x0002 && t.r == 0x01 && t.tstates == some 7 := by
  decide +kernel

/-- V48.7: DJNZ with B = 1: not taken. -/
theorem test_V48_7 : (run [0x10, 0x05] { State.reset with b := 0x01 }).any fun t =>
      t.b == 0x00 && t.pc == 0x0002 && t.r == 0x01 && t.tstates == some 8 := by
  decide +kernel

/-- V48.8: DJNZ with B = 0: B = 0xFF, taken. -/
theorem test_V48_8 : (run [0x10, 0x05] { State.reset with b := 0x00 }).any fun t =>
      t.b == 0xFF && t.pc == 0x0007 && t.r == 0x01 && t.tstates == some 13 := by
  decide +kernel

/-- V48.9: CALL C not taken. -/
theorem test_V48_9 : (run [0xDC, 0x00, 0x90]
    { State.reset with pc := 0x0100, sp := 0x8000, f := 0x00 }).any fun t =>
      t.pc == 0x0103 && t.r == 0x01 && t.tstates == some 10 := by
  decide +kernel

/-- V48.10: CALL NZ taken. -/
theorem test_V48_10 : (run [0xC4, 0x00, 0x90]
    { State.reset with pc := 0x0100, sp := 0x8000, f := 0x00 }).any fun t =>
      t.sp == 0x7FFE && t.pc == 0x9000 && t.r == 0x01 && t.byteAt 0x7FFE == 0x03 &&
      t.byteAt 0x7FFF == 0x01 && t.tstates == some 17 := by
  decide +kernel

/-- V48.11: RET Z not taken. -/
theorem test_V48_11 : (run [0xC8] { State.reset with sp := 0x8000, f := 0x00 }).any fun t =>
      t.pc == 0x0001 && t.r == 0x01 && t.tstates == some 5 := by
  decide +kernel

/-- V48.12: RET with SP = 0xFFFF. -/
theorem test_V48_12 : (run [0xC9]
    (poke { State.reset with sp := 0xFFFF } [(0x0000, 0xC9), (0xFFFF, 0x34)])).any fun t =>
      t.sp == 0x0001 && t.pc == 0xC934 && t.r == 0x01 && t.tstates == some 10 := by
  decide +kernel

/-- V48.13: RETI copies IFF2. -/
theorem test_V48_13 : (run [0xED, 0x4D]
    (poke { State.reset with sp := 0x8000, iff1 := false, iff2 := true } [(0x8000, 0x00), (0x8001, 0x30)])).any fun t =>
      t.sp == 0x8002 && t.pc == 0x3000 && t.r == 0x02 && t.iff1 == true && t.tstates == some 14 := by
  decide +kernel

/-- V48.14: RETN. -/
theorem test_V48_14 : (run [0xED, 0x45]
    (poke { State.reset with sp := 0x8000, iff1 := false, iff2 := true } [(0x8000, 0x00), (0x8001, 0x30)])).any fun t =>
      t.sp == 0x8002 && t.pc == 0x3000 && t.r == 0x02 && t.iff1 == true && t.tstates == some 14 := by
  decide +kernel

/-- V48.15: RETN mirror ED 7D. -/
theorem test_V48_15 : (run [0xED, 0x7D]
    (poke { State.reset with sp := 0x8000, iff1 := true, iff2 := false } [(0x8000, 0x00), (0x8001, 0x30)])).any fun t =>
      t.sp == 0x8002 && t.pc == 0x3000 && t.r == 0x02 && t.iff1 == false && t.tstates == some 14 := by
  decide +kernel

/-- V48.16: RST 0x38: IFF unchanged. -/
theorem test_V48_16 : (run [0xFF]
    { State.reset with pc := 0x1234, sp := 0x8000, iff1 := true, iff2 := true }).any fun t =>
      t.sp == 0x7FFE && t.pc == 0x0038 && t.r == 0x01 && t.byteAt 0x7FFE == 0x35 &&
      t.byteAt 0x7FFF == 0x12 && t.tstates == some 11 := by
  decide +kernel

/-- V48.17: JP (IY). -/
theorem test_V48_17 : (run [0xFD, 0xE9] { State.reset with iy := 0xC000 }).any fun t =>
      t.pc == 0xC000 && t.r == 0x02 && t.tstates == some 8 := by
  decide +kernel

/-- V48.18: JP (HL) to 0. -/
theorem test_V48_18 : (run [0xE9] { State.reset with pc := 0x0100, h := 0x00, l := 0x00 }).any fun t =>
      t.pc == 0x0000 && t.r == 0x01 && t.tstates == some 4 := by
  decide +kernel

/-- V49.5: OUT (0x10),A: port 0x2310. -/
theorem test_V49_5 : (run [0xD3, 0x10] { State.reset with a := 0x23 }).any fun t =>
      t.pc == 0x0002 && t.r == 0x01 && t.tstates == some 11 &&
      t.bus.getLast? == some ⟨.iow, 0x2310, 0x23⟩ := by
  decide +kernel

/-- V49.6: OUT (C),0. -/
theorem test_V49_6 : (run [0xED, 0x71] { State.reset with b := 0xAB, c := 0xCD }).any fun t =>
      t.pc == 0x0002 && t.r == 0x02 && t.tstates == some 12 &&
      t.bus.getLast? == some ⟨.iow, 0xABCD, 0x00⟩ := by
  decide +kernel

/-- V49.7: OUT (C),H. -/
theorem test_V49_7 : (run [0xED, 0x61] { State.reset with b := 0x00, c := 0xFE, h := 0x5A }).any fun t =>
      t.pc == 0x0002 && t.r == 0x02 && t.tstates == some 12 &&
      t.bus.getLast? == some ⟨.iow, 0x00FE, 0x5A⟩ := by
  decide +kernel

/-- V49.10: OTIR, last iteration. -/
theorem test_V49_10 : (run [0xED, 0xB3]
    (poke { State.reset with pc := 0x0100, b := 0x01, c := 0x10, h := 0x40, l := 0x00 } [(0x4000, 0x01)])).any fun t =>
      t.f == 0x40 && t.b == 0x00 && t.l == 0x01 && t.pc == 0x0102 && t.r == 0x02 &&
      t.tstates == some 16 && t.bus.getLast? == some ⟨.iow, 0x0010, 0x01⟩ := by
  decide +kernel

/-- V49.11: OUTD. -/
theorem test_V49_11 : (run [0xED, 0xAB]
    (poke { State.reset with b := 0x03, c := 0x10, h := 0x40, l := 0x00 } [(0x4000, 0x80)])).any fun t =>
      t.f == 0x17 && t.b == 0x02 && t.h == 0x3F && t.l == 0xFF && t.pc == 0x0002 && t.r == 0x02 &&
      t.tstates == some 16 && t.bus.getLast? == some ⟨.iow, 0x0210, 0x80⟩ := by
  decide +kernel

/-- V30.1: DD DD LD IX,0x1234: chain. -/
theorem test_V30_1 : (run [0xDD, 0xDD, 0x21, 0x34, 0x12] State.reset).any fun t =>
      t.ix == 0x1234 && t.pc == 0x0005 && t.r == 0x03 && t.tstates == some 18 := by
  decide +kernel

/-- V30.2: FD DD: the last prefix selects IX. -/
theorem test_V30_2 : (run [0xFD, 0xDD, 0x21, 0x34, 0x12] State.reset).any fun t =>
      t.ix == 0x1234 && t.pc == 0x0005 && t.r == 0x03 && t.tstates == some 18 := by
  decide +kernel

/-- V30.3: DD ED 44: NEG, the DD ignored. -/
theorem test_V30_3 : (run [0xDD, 0xED, 0x44] { State.reset with a := 0x01 }).any fun t =>
      t.a == 0xFF && t.f == 0xBB && t.pc == 0x0003 && t.r == 0x03 && t.tstates == some 12 := by
  decide +kernel

/-- V30.4: DD NOP. -/
theorem test_V30_4 : (run [0xDD, 0x00] State.reset).any fun t =>
      t.pc == 0x0002 && t.r == 0x02 && t.tstates == some 8 := by
  decide +kernel

/-- V30.5: DD CB: R counts 2 (4th byte not M1). -/
theorem test_V30_5 : (run [0xDD, 0xCB, 0x05, 0x46]
    (poke { State.reset with ix := 0x2000 } [(0x2005, 0x01)])).any fun t =>
      t.f == 0x30 && t.pc == 0x0004 && t.r == 0x02 && t.tstates == some 20 := by
  decide +kernel

/-- V60.1: halted step. -/
theorem test_V60_1 : (run [0x00] { State.reset with pc := 0x0300, halted := true }).any fun t =>
      t.r == 0x01 && t.tstates == some 4 := by
  decide +kernel

/-- V60.2: NMI while halted. -/
theorem test_V60_2 : (run [0x76]
    { State.reset with pc := 0x0300, halted := true, sp := 0x8000, nmiPending := true, iff1 := true, iff2 := true }).any fun t =>
      t.sp == 0x7FFE && t.pc == 0x0066 && t.r == 0x01 && t.iff1 == false && t.halted == false &&
      t.nmiPending == false && t.byteAt 0x7FFE == 0x01 && t.byteAt 0x7FFF == 0x03 &&
      t.tstates == some 11 := by
  decide +kernel

/-- V60.3: INT while halted (IM 1). -/
theorem test_V60_3 : (run [0x76]
    { State.reset with pc := 0x0300, halted := true, sp := 0x8000, iff1 := true, iff2 := true, im := .im1, intLine := true }).any fun t =>
      t.sp == 0x7FFE && t.pc == 0x0038 && t.r == 0x01 && t.iff1 == false && t.iff2 == false &&
      t.halted == false && t.byteAt 0x7FFE == 0x01 && t.byteAt 0x7FFF == 0x03 && t.tstates == some 13 := by
  decide +kernel

/-- V60.4: INT with IFF1 = 0: ignored. -/
theorem test_V60_4 : (run [0x00]
    { State.reset with pc := 0x0300, iff1 := false, im := .im1, intLine := true }).any fun t =>
      t.pc == 0x0301 && t.r == 0x01 && t.tstates == some 4 := by
  decide +kernel

/-- V60.5: INT with ei_delay = 1: held off. -/
theorem test_V60_5 : (run [0x00]
    { State.reset with pc := 0x0300, iff1 := true, iff2 := true, eiDelay := 1, im := .im1, intLine := true }).any fun t =>
      t.pc == 0x0301 && t.r == 0x01 && t.eiDelay == 0 && t.tstates == some 4 := by
  decide +kernel

/-- V60.6: NMI and INT together: NMI. -/
theorem test_V60_6 : (run [0x00]
    { State.reset with pc := 0x0300, iff1 := true, iff2 := true, im := .im1, sp := 0x8000, nmiPending := true, intLine := true }).any fun t =>
      t.sp == 0x7FFE && t.pc == 0x0066 && t.r == 0x01 && t.iff1 == false && t.nmiPending == false &&
      t.byteAt 0x7FFF == 0x03 && t.tstates == some 11 := by
  decide +kernel

/-- V60.7: IM 0 acceptance (as IM 1). -/
theorem test_V60_7 : (run [0x00]
    { State.reset with pc := 0x0300, iff1 := true, iff2 := true, im := .im0, sp := 0x8000, intLine := true }).any fun t =>
      t.sp == 0x7FFE && t.pc == 0x0038 && t.r == 0x01 && t.iff1 == false && t.iff2 == false &&
      t.byteAt 0x7FFF == 0x03 && t.tstates == some 13 := by
  decide +kernel

/-- V60.8: IM 2, bus_byte 0x10. -/
theorem test_V60_8 : (run [0x00]
    (poke { State.reset with pc := 0x0300, iff1 := true, iff2 := true, im := .im2, i := 0x20, busByte := 0x10, sp := 0x8000, intLine := true } [(0x2010, 0x00), (0x2011, 0x40)])).any fun t =>
      t.sp == 0x7FFE && t.pc == 0x4000 && t.r == 0x01 && t.iff1 == false && t.iff2 == false &&
      t.byteAt 0x7FFF == 0x03 && t.tstates == some 19 := by
  decide +kernel

/-- V60.9: IM 2, I = 0xFF, bus_byte 0xFF: vector wraps. -/
theorem test_V60_9 : (run [0x00]
    (poke { State.reset with pc := 0x0300, iff1 := true, iff2 := true, im := .im2, i := 0xFF, busByte := 0xFF, sp := 0x8000, intLine := true } [(0x0000, 0x00), (0xFFFF, 0x00)])).any fun t =>
      t.sp == 0x7FFE && t.pc == 0x0000 && t.r == 0x01 && t.iff1 == false && t.iff2 == false &&
      t.byteAt 0x7FFF == 0x03 && t.tstates == some 19 := by
  decide +kernel

/-- V60.10: InvalidOpcode ED 00: state restored. -/
theorem test_V60_10 : (run [0xED, 0x00] { State.reset with pc := 0x0100, r := 0x05 }).any fun t =>
      t.fault == some ⟨.invalidOpcode, 0x0100, [0xED, 0x00]⟩ && t.pc == 0x0100 && t.r == 0x05 &&
      t.tstates == none := by
  decide +kernel

/-- V60.11: InvalidOpcode via DD ED FF: all three bytes recorded. -/
theorem test_V60_11 : (run [0xDD, 0xED, 0xFF] { State.reset with pc := 0x0100, eiDelay := 1 }).any fun t =>
      t.fault == some ⟨.invalidOpcode, 0x0100, [0xDD, 0xED, 0xFF]⟩ && t.pc == 0x0100 && t.r == 0x00 &&
      t.tstates == none := by
  decide +kernel

/-- V60.13: InvalidOpcode ED 77. -/
theorem test_V60_13 : (run [0xED, 0x77] State.reset).any fun t =>
      t.fault == some ⟨.invalidOpcode, 0x0000, [0xED, 0x77]⟩ && t.pc == 0x0000 && t.r == 0x00 &&
      t.tstates == none := by
  decide +kernel

/-! ### Transactions and free values -/

/-- PUSH writes the high byte first (20_memory R80). -/
theorem test_push_bus : (run [0xD5] { State.reset with d := 0x12, e := 0x34, sp := 0x8000 }).any fun t =>
    t.bus == [⟨.m1, 0x0000, 0xD5⟩, ⟨.mw, 0x7FFF, 0x12⟩, ⟨.mw, 0x7FFE, 0x34⟩] := by
  decide +kernel

/-- DD CB d op: two M1 fetches, then d and the fourth byte as operand reads (30_encoding R115). -/
theorem test_xycb_bus : (run [0xDD, 0xCB, 0x05, 0xC6] { State.reset with ix := 0x2000 }).any fun t =>
    t.bus.map (fun ev => (ev.kind, ev.addr)) ==
      [(.m1, 0x0000), (.m1, 0x0001), (.mr, 0x0002), (.mr, 0x0003), (.mr, 0x2005), (.mw, 0x2005)] := by
  decide +kernel

/-- LD (nn),A: the operand bytes are fetched low first, then the byte is written (30_encoding R103). -/
theorem test_operand_bus : (run [0x32, 0xFF, 0x7F] { State.reset with a := 0x5A }).any fun t =>
    t.bus == [⟨.m1, 0x0000, 0x32⟩, ⟨.mr, 0x0001, 0xFF⟩, ⟨.mr, 0x0002, 0x7F⟩, ⟨.mw, 0x7FFF, 0x5A⟩] := by
  decide +kernel

/-- V49.1: IN A,(n) asks port A:n and takes the answer, whatever it is. -/
theorem test_V49_1 : ((run [0xDB, 0x10] { State.reset with a := 0x23 }).map fun t => (t.a, t.draws)) =
    some (Config.ioAnswer 2 0x2310, 3) := by
  rfl

/-- V49.3: IN C,(C) asks port B:C as it was before C is written. -/
theorem test_V49_3 : ((run [0xED, 0x48] { State.reset with b := 0x12, c := 0xFE }).map fun t => t.c) =
    some (Config.ioAnswer 2 0x12FE) := by
  rfl

/-- V49.8: INI asks port B:C with B before the decrement and stores the answer at HL. -/
theorem test_V49_8 : ((run [0xED, 0xA2] { State.reset with b := 0x01, c := 0xFF, h := 0x40 }).map fun t =>
    (t.b, t.l, t.bus.getLast?)) = some (0x00, 0x01, some ⟨.mw, 0x4000, Config.ioAnswer 2 0x01FF⟩) := by
  rfl

/-! ### The parameters at other values (00_scope R8) -/

/-- `chip_Q`: where A has bits 5 and 3 set, Y and X are set whatever F and the free byte are (44_general R265). -/
theorem test_scf_chip_q (f free : Byte) : scfYX .chipQ 0x28 f free = (true, true) := by
  simp [scfYX]

/-- `chip_2018`: a repeating LDIR takes Y and X from the rewound PC 0x2800 (42_exchange_block R213). -/
theorem test_ldir_chip_2018 : (run [0xED, 0xB0]
      { State.reset with
        pc := 0x2800, b := 0x01, d := 0x40, params := { Config.specParams with repeatFlags := .chip2018 } }).any
      fun t => t.f == 0x2C && t.pc == 0x2800 && t.tstates == some 21 := by
  decide +kernel

/-- `OUT_C0_VALUE` of a CMOS part (49_io R399). -/
theorem test_out_c0_cmos : (run [0xED, 0x71]
      { State.reset with b := 0x12, params := { Config.specParams with outC0Value := 0xFF } }).any
      fun t => t.bus.getLast? == some ⟨.iow, 0x1200, 0xFF⟩ := by
  decide +kernel

/-- The example of 60_exceptions R442: UNDOC_UNIMPL = {(DD, 0x24)} and the bytes DD 24. -/
theorem test_undoc_unimpl : (run [0xDD, 0x24]
      { State.reset with params := { Config.specParams with undocUnimpl := [(.ix, 0x24)] } }).any
      fun t => t.fault == some ⟨.unimplementedUndocumented, 0x0000, [0xDD, 0x24]⟩ && t.pc == 0x0000 &&
        t.r == 0x00 && t.tstates == none := by
  decide +kernel

/-- Another memory device: a data read takes its answer, whatever it is (20_memory R74). -/
theorem test_oracle_read :
    (match exec (.ldRegAtHl .a)
      { State.reset with h := 0x40, params := { Config.specParams with memDevice := .oracle } } with
    | .next t => some t.a
    | _ => none) = some (Config.memAnswer 0 0x4000) := by
  rfl

/-! ### The end of a run (60_exceptions R451) -/

/-- LD A,n; HALT: the run ends at the halted state, and R and the T-states are not observed. -/
theorem test_run_ends :
    runObservation [.step, .step, .step, .step]
      (poke State.reset [(0x0000, 0x3E), (0x0001, 0x42), (0x0002, 0x76)]) =
    some { poke State.reset [(0x0000, 0x3E), (0x0001, 0x42), (0x0002, 0x76)] with
      a := 0x42, pc := 0x0002, halted := true, busByte := 0 } := by
  decide +kernel

/-- JR -2 never ends; a halted state with an NMI to come is no end. -/
theorem test_run_goes_on :
    runEnd [.step, .step, .step] (poke State.reset [(0x0000, 0x18), (0x0001, 0xFE)]) = none ∧
    State.atEnd { State.reset with halted := true } [.host .assertNmi] = false ∧
    State.atEnd { State.reset with halted := true } [.step] = true := by
  decide +kernel

/-! ### Reset, the host, faults -/

/-- The state of V70.1. -/
def beforeReset : State :=
  { State.reset with
    pc := 0x1234, a := 0x12, f := 0xFF, sp := 0x8000, i := 0x55, r := 0xE6, im := .im2, iff1 := true
    iff2 := true, halted := true, eiDelay := 1, nmiPending := true }

/-- V70.1: Reset sets its ten fields and keeps A, F and SP. -/
theorem test_V70_1 : (match hostAct .reset beforeReset with
    | .next t => t == { State.reset with a := 0x12, f := 0xFF, sp := 0x8000 }
    | _ => false) = true := by
  decide +kernel

/-- V70.2: Reset of a faulted state clears the record and keeps B. -/
theorem test_V70_2 : (match hostAct .reset
      { State.reset with b := 0x07, pc := 0x0100, fault := some ⟨.invalidOpcode, 0x0100, [0xED, 0x00]⟩ } with
    | .next t => t == { State.reset with b := 0x07 }
    | _ => false) = true := by
  decide +kernel

/-- V70.3: after Reset a step with INT asserted runs the instruction at 0x0000. -/
theorem test_V70_3 : (run [0x00] { beforeReset.resetInput with intLine := true }).any fun t =>
    t.pc == 0x0001 && t.r == 0x01 && t.tstates == some 4 := by
  decide +kernel

/-- V70.4: after Reset an NMI is accepted at once. -/
theorem test_V70_4 : (run [0x00] { beforeReset.resetInput with nmiPending := true }).any fun t =>
    t.pc == 0x0066 && t.sp == 0x7FFE && t.r == 0x01 && t.tstates == some 11 := by
  decide +kernel

/-- The codes of the two exceptions (60_exceptions R440). -/
theorem test_fault_codes :
    FaultKind.invalidOpcode.code = 1 ∧ FaultKind.unimplementedUndocumented.code = 2 := by
  decide

/-- No step from a faulted state (60_exceptions R443). -/
theorem test_faulted_step :
    (match step { State.reset with fault := some ⟨.invalidOpcode, 0x0000, [0xED, 0x00]⟩ } with
    | .fault .faulted => true
    | _ => false) = true := by
  decide +kernel

/-- `withFetchWord` places a table word where the very next step runs it: LD BC,0x1234. -/
theorem test_withFetchWord : (match step (State.reset.withFetchWord 24 0x123401) with
    | .next t => t.b == 0x12 && t.c == 0x34 && t.pc == 0x0003
    | _ => false) = true := by
  decide +kernel

/-! ### WellFormed: an ill-formed term for each check -/

/-- RETN has no opcode 0xED 0x4D: that is RETI (30_encoding R108). -/
theorem test_ill_retn : (Instr.retn 1).wellFormed = false ∧ (Instr.retn 3).wellFormed = true := by decide +kernel

/-- The y fields of the IM rows are their own mirrors (44_general R270). -/
theorem test_ill_im :
    (Instr.im0 2).wellFormed = false ∧ (Instr.im1 0).wellFormed = false ∧ (Instr.im2 1).wellFormed = false ∧
    (Instr.im0 5).wellFormed = true ∧ (Instr.im1 6).wellFormed = true ∧ (Instr.im2 7).wellFormed = true := by
  decide +kernel

/-- LD r,r' under an index prefix with neither H nor L is the base instruction (40_load8 R156). -/
theorem test_ill_ldRegRegXr :
    (Instr.ldRegRegXr .ix .b .c).wellFormed = false ∧ (Instr.ldRegRegXr .ix .b .h).wellFormed = true := by
  decide +kernel

/-- The prefix rows whose entries have rows of their own (30_encoding R107, R108, R115; log entry 15). -/
theorem test_ill_prefix_rows :
    (Instr.prefixCB 0x00).wellFormed = false ∧ (Instr.prefixXrCB .ix 0x00 0x06).wellFormed = false ∧
    (Instr.prefixED 0x44).wellFormed = false ∧ (Instr.prefixED 0x00).wellFormed = true := by
  decide +kernel

/-- The rows of the index prefixes stand for members of UNDOC_UNIMPL alone, and a member has no other row
(30_encoding R116). -/
theorem test_ill_undoc :
    (Instr.prefixDD 0x24).wellFormed = false ∧ (Instr.prefixFD 0x24).wellFormed = false ∧
    (Instr.prefixDD 0x24).wellFormedWith [(.ix, 0x24)] = true ∧
    (Instr.incXrHalf .ix .hi).wellFormedWith [(.ix, 0x24)] = false ∧
    (Instr.prefixDD 0xED).wellFormedWith [(.ix, 0xED)] = false := by
  decide +kernel

/-- An ignored prefix stands before the instructions its row admits (30_encoding R112, R113, R114). -/
theorem test_ill_ignored_prefix :
    (Instr.prefixXrXr .ix .nop).wellFormed = false ∧ (Instr.prefixXrXr .ix (.incXr .iy)).wellFormed = true ∧
    (Instr.prefixXrED .ix .nop).wellFormed = false ∧ (Instr.prefixXrED .ix (.neg 0)).wellFormed = true ∧
    (Instr.prefixXrPass .ix (.neg 0)).wellFormed = false ∧ (Instr.prefixXrPass .ix .jpHl).wellFormed = false ∧
    (Instr.prefixXrPass .ix .nop).wellFormed = true ∧ (Instr.prefixXrXr .ix (.prefixXrPass .iy (.retn 1))).wellFormed
      = false := by
  decide +kernel

/-! ### Witnesses: every statement with hypotheses has a state and operands that meet them all -/

theorem witness_DecodeOfEncodeIsIdentity :
    (Instr.ldAtXrReg .iy 0xFF .l).wellFormedWith [] = true ∧
    (Instr.prefixDD 0x24).wellFormedWith [(.ix, 0x24)] = true := by
  decide +kernel

theorem witness_EncodeOfDecodeIsIdentity :
    decodeWith [] [0xFD, 0x75, 0xFF, 0x01] = .ok (.ldAtXrReg .iy 0xFF .l, [0x01]) ∧
    decodeWith [(.ix, 0x24)] [0xDD, 0x24] = .ok (.prefixDD 0x24, []) :=
  ⟨rfl, rfl⟩

/-- The first and the last unlisted opcode of each range of the ED table, and the listed ones beside them. -/
theorem witness_EncodingSpaceIsTotal :
    reads [0xED, 0x3F] (.prefixED 0x3F) ∧ reads [0xED, 0x40] (.inRegC .b) ∧
    reads [0xED, 0x9F] (.prefixED 0x9F) ∧ reads [0xED, 0xA0] .ldi ∧ reads [0xED, 0xBB] .otdr ∧
    reads [0xED, 0xBC] (.prefixED 0xBC) ∧ (0x00 : Byte) ≠ 0xDD ∧ (0x00 : Byte) ≠ 0xFD := by
  decide +kernel

/-- What the decoder reads from memory with nothing listed. -/
theorem decode_reset : ∃ rest, decodeWith State.reset.params.undocUnimpl
    (State.reset.bytesFrom 1 0 State.reset.pc) = .ok (.nop, rest) := ⟨[], rfl⟩

theorem witness_StepRunsDecodedInstruction :
    State.reset.fault = none ∧ State.reset.nmiPending = false ∧
    (State.reset.intLine && State.reset.iff1 && State.reset.eiDelay == 0) = false ∧
    State.reset.halted = false ∧
    ∃ rest, decodeWith State.reset.params.undocUnimpl (State.reset.bytesFrom 1 0 State.reset.pc) =
      .ok (.nop, rest) :=
  ⟨rfl, rfl, rfl, rfl, decode_reset⟩

/-- An NMI pending: running and halted. -/
theorem witness_NmiAcceptance :
    ({ State.reset with nmiPending := true } : State).fault = none ∧
    ({ State.reset with nmiPending := true } : State).nmiPending = true ∧
    ({ State.reset with nmiPending := true, halted := true } : State).halted = true := by
  decide +kernel

/-- A maskable interrupt to accept. -/
def intReady : State := { State.reset with intLine := true, iff1 := true, iff2 := true }

/-- A maskable interrupt to accept, in each interrupt mode and halted. -/
theorem witness_IntAcceptance :
    (∀ m ∈ [IntMode.im0, .im1, .im2], ∀ halted ∈ [true, false],
      let s := { intReady with im := m, halted := halted }
      s.fault = none ∧ s.nmiPending = false ∧ s.intLine = true ∧ s.iff1 = true ∧ s.eiDelay = 0 ∧ s.im = m) := by
  decide +kernel

theorem witness_HaltedStepCountsROnly :
    (let s := { State.reset with halted := true }
    s.fault = none ∧ s.nmiPending = false ∧ (s.intLine && s.iff1 && s.eiDelay == 0) = false ∧
      s.halted = true) ∧
    (let s := { State.reset with halted := true, intLine := true }
    Quiescent s ∧ s.eiDelay = 0) :=
  ⟨⟨rfl, rfl, rfl, rfl⟩, ⟨rfl, rfl, rfl, rfl⟩, rfl⟩

/-- The first clause: EI, and an instruction that is none. -/
theorem witness_OnlyEiDelaysInterrupts_first :
    (let s := poke State.reset [(0x0000, 0xFB)]
    s.fault = none ∧ s.nmiPending = false ∧ (s.intLine && s.iff1 && s.eiDelay == 0) = false ∧ s.halted = false ∧
      s.instrAt s.pc = .ok .ei ∧ ∃ t, step s = .next t ∧ t.fault = none) ∧
    (let s := { State.reset with eiDelay := 1 }
    s.fault = none ∧ s.nmiPending = false ∧ (s.intLine && s.iff1 && s.eiDelay == 0) = false ∧ s.halted = false ∧
      s.instrAt s.pc = .ok .nop ∧ ∃ t, step s = .next t ∧ t.fault = none) := by
  refine ⟨⟨rfl, rfl, rfl, rfl, ?_, _, (step_of_instr (i := .ei) rfl rfl rfl rfl ?_).trans rfl, rfl⟩,
    ⟨rfl, rfl, rfl, rfl, ?_, _, (step_of_instr (i := .nop) rfl rfl rfl rfl ?_).trans rfl, rfl⟩⟩ <;>
  · rw [State.instrAt, window_cons]
    rfl

/-- The second clause: ei_delay is 1 with INT asserted. -/
theorem witness_OnlyEiDelaysInterrupts_second :
    let s := { intReady with eiDelay := 1 }
    s.fault = none ∧ s.nmiPending = false ∧ s.halted = false ∧ s.eiDelay = 1 ∧ s.instrAt s.pc = .ok .nop := by
  refine ⟨rfl, rfl, rfl, rfl, ?_⟩
  rw [State.instrAt, window_cons]
  rfl

theorem witness_FaultedStateHasNoStep :
    Faulted { State.reset with fault := some ⟨.invalidOpcode, 0x0000, [0xED, 0x00]⟩ } := rfl

/-- Alone, and after a run of prefixes across the top of the address space. -/
theorem witness_UnpopulatedEdIsInvalidOpcode :
    (let s := poke State.reset [(0x0000, 0xED), (0x0001, 0x77)]
    s.fault = none ∧ s.nmiPending = false ∧ (s.intLine && s.iff1 && s.eiDelay == 0) = false ∧ s.halted = false ∧
      s.bytesFrom 2 0 s.pc = [0xED, 0x77] ∧ edPopulated 0x77 = false) ∧
    (let s := poke { State.reset with pc := 0xFFFE, eiDelay := 1 }
      [(0xFFFE, 0xDD), (0xFFFF, 0xFD), (0x0000, 0xED), (0x0001, 0xFF)]
    s.fault = none ∧ s.nmiPending = false ∧ (s.intLine && s.iff1 && s.eiDelay == 0) = false ∧ s.halted = false ∧
      s.bytesFrom 4 0 s.pc = [XR.ix, .iy].map xrCode ++ [0xED, 0xFF] ∧ edPopulated 0xFF = false) := by
  decide +kernel

theorem witness_UndocUnimplRaisesItsFault :
    ((XR.ix, (0x24 : Byte)) ∈ [(XR.ix, (0x24 : Byte))] ∧ (0x24 : Byte) ≠ 0xCB ∧ (0x24 : Byte) ≠ 0xDD ∧
      (0x24 : Byte) ≠ 0xED ∧ (0x24 : Byte) ≠ 0xFD) ∧
    (let s := poke { State.reset with params := { Config.specParams with undocUnimpl := [(.iy, 0x24)] } }
      [(0x0000, 0xDD), (0x0001, 0xFD), (0x0002, 0x24)]
    s.fault = none ∧ s.nmiPending = false ∧ (s.intLine && s.iff1 && s.eiDelay == 0) = false ∧ s.halted = false ∧
      s.bytesFrom 3 0 s.pc = [XR.ix].map xrCode ++ [xrCode .iy, 0x24] ∧
      (XR.iy, (0x24 : Byte)) ∈ s.params.undocUnimpl) ∧
    decodeWith [] [0xDD, 0x24] = .ok (.incXrHalf .ix .hi, []) := by
  decide +kernel

/-- A stretch of memory that holds one byte. -/
def filled (v : Byte) : Nat → Nat → List Host.Cell
  | _, 0 => []
  | a, n + 1 => (a, v) :: filled v (a + 1) n

theorem memGet_filled (v : Byte) (n a k : Nat) (h1 : a ≤ k) (h2 : k < a + n) : memGet (filled v a n) k = v := by
  induction n generalizing a with
  | zero => omega
  | succ n ih =>
    rw [filled, memGet]
    split
    · rfl
    · exact ih (a + 1) (by omega) (by omega)

/-- Every byte of memory is an index prefix: nothing else is fetched, whatever PC is. -/
theorem witness_EndlessPrefixRunStops :
    let s := { State.reset with mem := filled 0xDD 0 65536 }
    s.fault = none ∧ s.nmiPending = false ∧ (s.intLine && s.iff1 && s.eiDelay == 0) = false ∧ s.halted = false ∧
      ∀ k, s.codeAt k (s.pc + BitVec.ofNat 16 k) = 0xDD ∨ s.codeAt k (s.pc + BitVec.ofNat 16 k) = 0xFD :=
  ⟨rfl, rfl, rfl, rfl, fun k => .inl (memGet_filled 0xDD 65536 0 (State.reset.pc + BitVec.ofNat 16 k).toNat
    (Nat.zero_le _) (Nat.lt_of_lt_of_eq (BitVec.isLt _) (Nat.zero_add _).symm))⟩

theorem witness_ResetAndPowerOn : ∃ t, hostAct .reset beforeReset = .next t := ⟨_, rfl⟩

theorem witness_HostWritesAreLegal :
    (∃ t, hostAct .assertNmi State.reset = .next t) ∧
    (∃ t, hostAct (.write8 .a 0x01) State.reset = .next t) ∧
    (∀ a v, HostAction.write8 .a 0x01 ≠ .loadByte a v) :=
  ⟨⟨_, rfl⟩, ⟨_, rfl⟩, nofun⟩

/-- A step of one instruction, of an acceptance and of a halted core, each from a state that meets the
invariant. -/
theorem witness_StepKeepsInvariant :
    (Inv State.reset ∧ ∃ t, step State.reset = .next t) ∧ (Inv intReady ∧ ∃ t, step intReady = .next t) ∧
    (Inv { State.reset with halted := true } ∧ ∃ t, step { State.reset with halted := true } = .next t) := by
  refine ⟨⟨⟨rfl, by decide, nofun, nofun⟩, _, step_of_instr rfl rfl rfl rfl (i := .nop) ?_⟩,
    ⟨⟨rfl, by decide, nofun, fun _ => rfl⟩, _, step_of_int rfl rfl rfl⟩,
    ⟨⟨rfl, by decide, fun _ => rfl, nofun⟩, _, step_of_halted rfl rfl rfl rfl⟩⟩
  rw [State.instrAt, window_cons]
  rfl

/-- Halted on a HALT byte. -/
theorem witness_StepKeepsHaltAddress :
    let s := { poke State.reset [(0x0000, 0x76)] with halted := true }
    HaltInv s ∧ ∃ t, step s = .next t :=
  ⟨fun _ _ => rfl, _, step_of_halted rfl rfl rfl rfl⟩

/-- With the spec's parameters, and a member of UNDOC_UNIMPL where there is one. -/
theorem witness_EveryInstructionCompletes :
    Instr.nop.wellFormedWith State.reset.params.undocUnimpl = true ∧
    (Instr.prefixED 0x00).wellFormedWith State.reset.params.undocUnimpl = true ∧
    (let s := { State.reset with params := { Config.specParams with undocUnimpl := [(.ix, 0x24)] } }
    (Instr.prefixDD 0x24).wellFormedWith s.params.undocUnimpl = true) := by
  decide +kernel

/-- The ends: a faulted state, a quiescent one with moves that are none of an NMI, and states that are neither:
one that runs on and one that is halted with IFF1 set. -/
theorem witness_EndOfRun :
    (let s := { State.reset with halted := true }
    runEnd [.step, .host (.setInt true)] s = some s ∧ noNmi [.step] = true ∧ Quiescent s ∧ s.eiDelay = 0) ∧
    (¬ Faulted State.reset ∧ ¬ Quiescent State.reset ∧
      ∃ t, move (.host .assertNmi) State.reset = .next t) ∧
    (let s := { State.reset with halted := true, iff1 := true, iff2 := true }
    s.fault = none ∧ s.iff1 = true) ∧
    Faulted { State.reset with fault := some ⟨.invalidOpcode, 0x0000, [0xED, 0x00]⟩ } :=
  ⟨⟨rfl, rfl, ⟨rfl, rfl, rfl, rfl⟩, rfl⟩, ⟨nofun, nofun, _, rfl⟩, ⟨rfl, rfl⟩, rfl⟩

/-- The RAM device. -/
theorem witness_MemoryReadsBackWrites : State.reset.params.memDevice = .ram := rfl

/-- The RAM device. -/
theorem witness_PushThenPop : State.reset.params.memDevice = .ram := rfl

/-- NOP meets every condition on the body; EX AF,AF' and EXX meet one each. -/
theorem witness_ShadowRegistersOnlyExchanged :
    Instr.exx.wellFormed = true ∧ (∃ t, exec .exx State.reset = .next t) ∧ body .exx ≠ .exAfAf ∧
    Instr.exAfAf.wellFormed = true ∧ (∃ t, exec .exAfAf State.reset = .next t) ∧ body .exAfAf ≠ .exx :=
  ⟨by decide +kernel, ⟨_, rfl⟩, nofun, by decide +kernel, ⟨_, rfl⟩, nofun⟩

theorem witness_OnlyLoadsWriteIAndR :
    Instr.ldIA.wellFormed = true ∧ (∃ t, exec .ldIA State.reset = .next t) ∧ body .ldIA ≠ .ldRA ∧
    body .ldIA = .ldIA ∧ Instr.ldRA.wellFormed = true ∧ (∃ t, exec .ldRA State.reset = .next t) ∧
    body .ldRA ≠ .ldIA ∧ body .ldRA = .ldRA :=
  ⟨by decide +kernel, ⟨_, rfl⟩, nofun, rfl, by decide +kernel, ⟨_, rfl⟩, nofun, rfl⟩

/-- RETN for the third clause, NOP for the others. -/
theorem witness_InterruptStateWriters :
    (Instr.nop.wellFormed = true ∧ (∃ t, exec .nop State.reset = .next t) ∧ body .nop ≠ .di ∧ body .nop ≠ .ei ∧
      body .nop ≠ .reti ∧ (∀ y, body .nop ≠ .retn y) ∧ (∀ y, body .nop ≠ .im0 y) ∧ (∀ y, body .nop ≠ .im1 y) ∧
      ∀ y, body .nop ≠ .im2 y) ∧
    ((Instr.retn 0).wellFormed = true ∧ (∃ t, exec (.retn 0) State.reset = .next t) ∧
      ∃ y, body (.retn 0) = .retn y) :=
  ⟨⟨by decide +kernel, ⟨_, rfl⟩, nofun, nofun, nofun, nofun, nofun, nofun, nofun⟩, by decide +kernel, ⟨_, rfl⟩,
    0, rfl⟩

theorem witness_SubtractFromAccumulator :
    ∀ op ∈ [AluOp.sub, .sbc, .cp], op = .sub ∨ op = .sbc ∨ op = .cp := by decide

theorem witness_LogicOnAccumulator :
    ∀ op ∈ [AluOp.and, .xor, .or], op = .and ∨ op = .xor ∨ op = .or := by decide

theorem witness_IncrementAndDecrement :
    incInstr (.atXr .ix 0x80) = some (.incAtXr .ix 0x80) ∧ decInstr (.half .iy .lo) = some (.decXrHalf .iy .lo) := by
  decide

theorem witness_RotatesAndShifts :
    rotInstr .sll (.copy .iy 0x7F .h) = some (.sllAtXrReg .iy 0x7F .h) ∧ rotInstr .rr .atHl = some .rrAtHl := by
  decide

theorem witness_SetAndResetBit :
    setInstr 7 (.copy .ix 0xFF .a) = some (.setAtXrReg .ix 0xFF 7 .a) ∧ resInstr 0 .atHl = some (.resAtHl 0) := by
  decide

/-- 99 + 99 with a carry. -/
theorem witness_DecimalAdjustAfterAddition :
    let s := { State.reset with a := 0x99, b := 0x99, f := 0x01 }
    (s.a.toNat / 16 ≤ 9 ∧ s.a.toNat % 16 ≤ 9) ∧ ((s.reg8 .b).toNat / 16 ≤ 9 ∧ (s.reg8 .b).toNat % 16 ≤ 9) ∧
    ∃ t u, exec (if true then .adcReg .b else .addReg .b) s = .next t ∧ exec .daa t = .next u :=
  ⟨by decide +kernel, by decide +kernel, _, _, rfl, rfl⟩

/-- Each clause: a CB entry, an XYCB entry, a populated and an unpopulated ED entry, an entry of each index
register, a member of UNDOC_UNIMPL. -/
theorem witness_PrefixRowsRunTheirEntry :
    decode [0xCB, 0x06] = .ok (.rlcAtHl, []) ∧ decode [xrCode .iy, 0xCB, 0x80, 0x06] = .ok (.rlcAtXr .iy 0x80, []) ∧
    (edPopulated 0x43 = true ∧
      ∃ rest, decodeWith State.reset.params.undocUnimpl (0xED :: 0x43 :: State.reset.bytesFrom 2 0 0) =
        .ok (.ldMemPair 0x0000 .bc, rest)) ∧
    edPopulated 0xFF = false ∧
    (∃ rest, decodeWith State.reset.params.undocUnimpl (0xDD :: 0x7E :: State.reset.bytesFrom 1 0 0) =
      .ok (.ldRegAtXr .ix .a 0x00, rest)) ∧
    (∃ rest, decodeWith State.reset.params.undocUnimpl (0xFD :: 0xE9 :: State.reset.bytesFrom 0 0 0) =
      .ok (.jpXr .iy, rest)) ∧
    (XR.ix, (0x24 : Byte)) ∈ (State.launch { Config.specParams with undocUnimpl := [(.ix, 0x24)] }
      ⟨0, 0, 0, 0, 0, 0, 0, 0, 0, 0, 0, 0, 0, 0, 0, 0, 0, 0, 0⟩).params.undocUnimpl :=
  ⟨rfl, rfl, ⟨by decide +kernel, [], rfl⟩, by decide +kernel, ⟨[], rfl⟩, ⟨[], rfl⟩, by decide +kernel⟩

theorem witness_IgnoredPrefixCostsFour :
    ((Instr.incXr .iy).lead = .index ∧ (Instr.incXr .iy).wellFormed = true) ∧
    ((Instr.neg 0).lead = .ed ∧ (Instr.neg 0).wellFormed = true) ∧
    (Instr.halt.lead = .plain ∧ Instr.halt.substituted = false ∧ Instr.halt.wellFormed = true) := by
  decide +kernel

end Sys2Proof.Tests
end

section
/-! PROOFS. What an instruction leaves of the control part of the state, said once for all rows. -/

namespace Sys2Proof.Machine

/-- The control part that an instruction leaves, ignored prefixes apart, `s` being the state its fetches left:
the instructions that write any of it are listed (10_state R31, R42, R44, R47, R48, R51, R52, R54). -/
def controlAfter (i : Instr) (s : State) : Control :=
  match i with
  | .exAfAf => { s.control with shadow := [s.a, s.f, s.b', s.c', s.d', s.e', s.h', s.l'] }
  | .exx => { s.control with shadow := [s.a', s.f', s.b, s.c, s.d, s.e, s.h, s.l] }
  | .ldIA => { s.control with i := s.a }
  | .ldRA => { s.control with r := s.a }
  | .di => { s.control with iff1 := false, iff2 := false }
  | .ei => { s.control with iff1 := true, iff2 := true, eiDelay := 1 }
  | .retn _ => { s.control with iff1 := s.iff2 }
  | .reti => { s.control with iff1 := s.iff2 }
  | .im0 _ => { s.control with im := .im0 }
  | .im1 _ => { s.control with im := .im1 }
  | .im2 _ => { s.control with im := .im2 }
  | .halt => { s.control with halted := true }
  | .prefixED _ => (s.raise .invalidOpcode).control
  | .prefixDD _ => (s.raise .unimplementedUndocumented).control
  | .prefixFD _ => (s.raise .unimplementedUndocumented).control
  | _ => s.control

/-- The result is a next state with this control part. -/
def Leaves (o : Result) (k : Control) : Prop := ∃ t, o = .next t ∧ t.control = k

theorem leaves_next {t : State} {k : Control} (h : t.control = k) : Leaves (.next t) k := ⟨t, rfl, h⟩

theorem leaves_ite {p : Prop} [Decidable p] {o o' : Result} {k : Control} (h : Leaves o k) (h' : Leaves o' k) :
    Leaves (if p then o else o') k := by
  split
  · exact h
  · exact h'

/-- The T-states that ignored prefixes add are no control part (30_encoding R112 to R114). -/
theorem leaves_addT {o : Result} {k : Control} (n : Nat) (h : Leaves o k) : Leaves (o.addT n) k := by
  obtain ⟨t, rfl, ht⟩ := h
  exact leaves_next ht

/-- An entry of the CB table keeps the control part (30_encoding R107). -/
theorem runCbEntry_leaves (op : Byte) (s : State) : Leaves (runCbEntry op s) s.control := by
  unfold runCbEntry
  split
  · exact leaves_ite (leaves_next rfl) (leaves_next (by simp))
  · exact leaves_ite (leaves_next rfl) (leaves_next (by simp))

/-- An entry of the XYCB table keeps the control part (30_encoding R115). -/
theorem runXyCbEntry_leaves (x : XR) (d op : Byte) (s : State) : Leaves (runXyCbEntry x d op s) s.control := by
  refine leaves_ite (leaves_next rfl) ?_
  split
  · exact leaves_next (by simp)
  · exact leaves_next (by simp)

/-- Every row answers a next state, and what it leaves of the control part is what its body writes. -/
theorem runRow_leaves (i : Instr) (s : State) : Leaves (runRow i s) (controlAfter (body i) s) := by
  induction i with
  | prefixXrXr _ _ ih => exact leaves_addT 4 ih
  | prefixXrED _ _ ih => exact leaves_addT 4 ih
  | prefixXrPass _ _ ih => exact leaves_addT 4 ih
  | prefixCB => exact runCbEntry_leaves _ s
  | prefixXrCB => exact runXyCbEntry_leaves _ _ _ s
  | jpCond | jrCond | djnz => exact leaves_ite (leaves_next rfl) (leaves_next rfl)
  | callCond | retCond => exact leaves_ite (leaves_next (by simp [controlAfter, body])) (leaves_next rfl)
  -- the rows that write some of the control part
  | retn | reti => exact leaves_next ((took_control _ _).trans (returnFromInterrupt_control s))
  | exAfAf | exx | ldIA | ldRA | di | ei | im0 | im1 | im2 | halt | prefixED | prefixDD | prefixFD =>
    exact leaves_next rfl
  -- the rows that are one update of other fields, written out
  | ldAI | ldAR | ldAPtr | ldAMem | ldSpHl | ldSpXr | exDeHl | daa | cpl | neg | jp | jr | jpHl | jpXr | inAN
  | inFC | bitAtHl =>
    exact leaves_next rfl
  -- the rows made of shared operations, each of which keeps the control part
  | cpi | cpd => exact leaves_next ((took_control _ _).trans (blockCompare_control _ _))
  | cpir | cpdr => exact leaves_next ((repeatBlock_control ..).trans (blockCompare_control _ _))
  | inRegC => exact leaves_next (setReg8_control ..)
  | _ => exact leaves_next (by simp [controlAfter, body])

end Sys2Proof.Machine
end

section
/-! PROOFS. The rows of 0xED, 0xDD and 0xFD that stand for a fault, and well-formed instructions as rows. -/

namespace Sys2Proof.Machine

/-- An unpopulated ED opcode selects the row of 0xED itself (30_encoding R108). -/
theorem decodeED_unpopulated {op : Byte} (h : edPopulated op = false) (rest : List Byte) :
    decodeED op rest = some (.prefixED op, rest) := by
  have h1 : ∀ op, edPopulated op = false → (opX op).toNat = 1 → op = 0x77 ∨ op = 0x7F := by decide +kernel
  have h2 : ∀ op, edPopulated op = false → (opX op).toNat = 2 → decodeED2 op = .prefixED op := by decide +kernel
  unfold decodeED
  split
  · obtain rfl | rfl := h1 op h ‹_› <;> rfl
  · rw [h2 op h ‹_›]
  · rfl

theorem decodeWith_ed (u : List (XR × Byte)) {op : Byte} {i : Instr} {bytes rest : List Byte}
    (h : decodeED op bytes = some (i, rest)) : decodeWith u (0xED :: op :: bytes) = .ok (i, rest) := by
  simp [decodeWith, xrOfLead, h]

/-- A member of UNDOC_UNIMPL selects the row of 0xDD or 0xFD, whatever follows (30_encoding R116). -/
theorem decodeWith_undocHit {u : List (XR × Byte)} {x : XR} {op : Byte} (h : undocHit u [x.lead, op] = true)
    (rest : List Byte) : decodeWith u (x.lead :: op :: rest) =
      .ok (match x with | .ix => .prefixDD op | .iy => .prefixFD op, rest) := by
  have hu : undocHit u [x.lead, op] =
      (u.contains (x, op) && !([0xCB, 0xDD, 0xED, 0xFD] : List Byte).contains op) := by cases x <;> rfl
  obtain ⟨hm, hcb, hdd, hed, hfd⟩ : (x, op) ∈ u ∧ op ≠ 0xCB#8 ∧ op ≠ 0xDD#8 ∧ op ≠ 0xED#8 ∧ op ≠ 0xFD#8 := by
    simpa [hu] using h
  cases x <;> simp [decodeWith, xrOfLead, XR.lead, decodeAfterXr, hm, hcb, hdd, hed, hfd]

/-- The row of 0xED at an unpopulated opcode raises InvalidOpcode (60_exceptions R441). -/
theorem runAfter_ed_unpopulated {op : Byte} (h : edPopulated op = false) (s : State) :
    runAfter [0xED, op] s = raiseFault .invalidOpcode s := by
  simp only [runAfter, List.cons_append, List.nil_append, decodeWith_ed _ (decodeED_unpopulated h _)]
  rfl

/-- The row of 0xDD or 0xFD at a member of UNDOC_UNIMPL raises UnimplementedUndocumented
(60_exceptions R442). -/
theorem runAfter_undocHit {s : State} {x : XR} {op : Byte}
    (h : undocHit s.params.undocUnimpl [x.lead, op] = true) :
    runAfter [x.lead, op] s = raiseFault .unimplementedUndocumented s := by
  simp only [runAfter, List.cons_append, List.nil_append, decodeWith_undocHit h]
  cases x <;> rfl

/-- A well-formed instruction does what its row does: only the rows of 0xED, 0xDD and 0xFD run another one, and
a well-formed one of these stands for an entry that raises a fault (log entry 15). -/
theorem exec_eq_runRow {i : Instr} {s : State} (h : i.wellFormedWith s.params.undocUnimpl = true) :
    exec i s = runRow i s := by
  obtain ⟨hf, hs⟩ := Bool.and_eq_true_iff.mp h
  cases i with
  | prefixED op => exact runAfter_ed_unpopulated (by simpa [Instr.fieldsOk] using hf) s
  | prefixDD op => exact runAfter_undocHit (x := .ix) hs
  | prefixFD op => exact runAfter_undocHit (x := .iy) hs
  | _ => rfl

/-- Every well-formed instruction answers a next state, and this is its control part. -/
theorem exec_leaves {i : Instr} {s : State} (h : i.wellFormedWith s.params.undocUnimpl = true) :
    Leaves (exec i s) (controlAfter (body i) s) := exec_eq_runRow h ▸ runRow_leaves i s

/-- The control part after a well-formed instruction (60_exceptions R427). -/
theorem exec_control {i : Instr} {s t : State} (h : i.wellFormedWith s.params.undocUnimpl = true)
    (ht : exec i s = .next t) : t.control = controlAfter (body i) s := by
  obtain ⟨u, hu, hc⟩ := exec_leaves h
  cases hu.symm.trans ht
  exact hc

/-- Only LD R,A writes R (10_state R44, R45). -/
theorem controlAfter_r {i : Instr} (s : State) (h : i ≠ .ldRA) : (controlAfter i s).r = s.r := by
  cases i with
  | ldRA => exact absurd rfl h
  | _ => rfl

/-- Only LD I,A writes I (10_state R42). -/
theorem controlAfter_i {i : Instr} (s : State) (h : i ≠ .ldIA) : (controlAfter i s).i = s.i := by
  cases i with
  | ldIA => exact absurd rfl h
  | _ => rfl

/-- The fetches of an instruction keep bit 7 of R (10_state R45, R46). -/
theorem fetched_r7 (s : State) (i : Instr) : (s.fetched i).r.getLsbD 7 = s.r.getLsbD 7 := by
  unfold State.fetched
  rw [fetchBytes_eq]
  exact (fetchOps_r _ s).1

end Sys2Proof.Machine
end

section
/-! PROOFS. Who writes R and I (10_state R42, R44, R45). -/

namespace Sys2Proof.Machine

/-- Settles O28: the control part after an instruction is that of its body, where LD R,A alone writes R and
LD I,A alone writes I, and the opcode fetches keep bit 7 of R. -/
theorem onlyLoadsWriteIAndR : Obligations.OnlyLoadsWriteIAndR := by
  refine ⟨fun i s t hw ht => ?_, fun i s => fetched_r7 s i⟩
  have hc := exec_control hw ht
  have hr : t.r = (controlAfter (body i) s).r := congrArg Control.r hc
  have hi : t.i = (controlAfter (body i) s).i := congrArg Control.i hc
  refine ⟨fun h => ?_, fun h => ?_, fun h => ?_, fun h => ?_⟩
  · rw [hr, h]; rfl
  · rw [hr, controlAfter_r s h]
  · rw [hi, h]; rfl
  · rw [hi, controlAfter_i s h]

end Sys2Proof.Machine
end

section
/-! PROOFS. The jumps (48_jump_call R360 to R366). -/

namespace Sys2Proof.Machine

/-- A condition and its cc field name the same flag and value (10_state R41). -/
theorem condHolds_eq (cc : Cond) (f : Byte) : condHolds cc f = ccHolds (condCode cc) f := by
  cases cc <;> simp [condHolds, ccHolds, condCode, flagZ, flagC, flagPV, flagS]

/-- A JR condition is one of the first four (10_state R41). -/
theorem jrCondHolds_eq (cc : JrCond) (f : Byte) : jrCondHolds cc f = ccHolds (0b0#1 ++ jrCondCode cc) f := by
  cases cc <;> simp [jrCondHolds, ccHolds, jrCondCode, flagZ, flagC]

theorem encoded_jpCond (cc : Cond) (nn : Word) :
    Encoded (.jpCond cc nn) [0b11#2 ++ condCode cc ++ 0b010#3, nn.extractLsb' 0 8, nn.extractLsb' 8 8] 1 := by
  cases cc <;> exact ⟨rfl, rfl⟩

theorem encoded_jrCond (cc : JrCond) (e : Byte) :
    Encoded (.jrCond cc e) [0b001#3 ++ jrCondCode cc ++ 0b000#3, e] 1 := by
  cases cc <;> exact ⟨rfl, rfl⟩

theorem encoded_jpXr (x : XR) : Encoded (.jpXr x) [xrCode x, 0xE9] 2 := by
  cases x <;> exact ⟨rfl, rfl⟩

/-- JP cc,nn: PC takes the target where the condition holds (48_jump_call R361). -/
theorem execJpCond_eq (cc : Cond) (nn : Word) (s : State) : execJpCond cc nn s =
    .next { s with pc := if ccHolds (condCode cc) s.f then nn else s.pc, tstates := some 10 } := by
  rw [execJpCond, condHolds_eq]
  split <;> rfl

/-- JR cc,e: where the condition holds, PC is displaced and the jump costs 5 T-states (48_jump_call R363). -/
theorem execJrCond_eq (cc : JrCond) (e : Byte) (s : State) : execJrCond cc e s =
    (let taken := ccHolds (0b0#1 ++ jrCondCode cc) s.f
    .next { s with
      pc := if taken then s.pc + e.signExtend 16 else s.pc, tstates := some (if taken then 12 else 7) }) := by
  rw [execJrCond, jrCondHolds_eq]
  dsimp only
  split <;> rfl

/-- DJNZ e: B counts down, and PC is displaced unless it counts from 1 to 0 (48_jump_call R366). -/
theorem execDjnz_eq (e : Byte) (s : State) : execDjnz e s = .next { s with
    b := s.b - 1, pc := if s.b = 1 then s.pc else s.pc + e.signExtend 16
    tstates := some (if s.b = 1 then 8 else 13) } := by
  unfold execDjnz
  by_cases h : s.b = 1
  · have hb : (s.b - 1 != 0) = false := by simp [h]
    simp only [hb, if_pos h]
    rfl
  · have hb : (s.b - 1 != 0) = true := bne_iff_ne.mpr (sub_ne_zero.mpr h)
    simp only [hb, if_neg h]
    rfl

/-- Settles O55, form by form: the encoding, then what the meaning does. -/
theorem jumps : Obligations.Jumps := by
  refine ⟨?jp, ?jpCond, ?jr, ?jrCond, ?jpHl, ?jpXr, ?djnz⟩
  case jp => exact fun _ _ => ⟨⟨rfl, rfl⟩, rfl⟩
  case jpCond => exact fun cc nn s => ⟨encoded_jpCond cc nn, execJpCond_eq cc nn s⟩
  case jr => exact fun _ _ => ⟨⟨rfl, rfl⟩, rfl⟩
  case jrCond => exact fun cc e s => ⟨encoded_jrCond cc e, execJrCond_eq cc e s⟩
  case jpHl => exact fun _ => ⟨⟨rfl, rfl⟩, rfl⟩
  case jpXr => exact fun x _ => ⟨encoded_jpXr x, rfl⟩
  case djnz => exact fun e s => ⟨⟨rfl, rfl⟩, execDjnz_eq e s⟩

end Sys2Proof.Machine
end

section
/-! PROOFS. The encodings of the 8-bit loads (40_load8): an opcode byte is written from its fields. -/

namespace Sys2Proof.Machine

/-- A field put in the clear bits 5:3 of an opcode byte (30_encoding R101). -/
theorem or_field3 : ∀ (x : BitVec 2) (y z : BitVec 3), (x ++ 0#3 ++ z) ||| field3 y = x ++ y ++ z := by
  decide +kernel

/-- A field put in the clear bits 2:0 of an opcode byte (30_encoding R101). -/
theorem or_low3 : ∀ (xy : BitVec 5) (z : BitVec 3), (xy ++ 0#3) ||| low3 z = xy ++ z := by
  decide +kernel

/-- The opcode of LD between the registers of the fields y and z. -/
theorem ldOp_fields (y z : BitVec 3) : 0x40 ||| field3 y ||| low3 z = 0b01#2 ++ y ++ z := by
  rw [show 0x40 ||| field3 y = 0b01#2 ++ y ++ 0#3 from or_field3 1 y 0]
  exact or_low3 (0b01#2 ++ y) z

theorem lead_eq_xrCode (x : XR) : x.lead = xrCode x := by cases x <;> rfl

theorem encoded_ldRegReg (r r' : Reg8) : Encoded (.ldRegReg r r') [0b01#2 ++ r.code ++ r'.code] 1 :=
  ⟨congrArg (fun op => [op]) (ldOp_fields r.code r'.code), rfl⟩

theorem encoded_ldRegN (r : Reg8) (n : Byte) : Encoded (.ldRegN r n) [0b00#2 ++ r.code ++ 0b110#3, n] 1 :=
  ⟨congrArg (fun op => [op, n]) (or_field3 0 r.code 6), rfl⟩

theorem encoded_ldRegAtHl (r : Reg8) : Encoded (.ldRegAtHl r) [0b01#2 ++ r.code ++ 0b110#3] 1 :=
  ⟨congrArg (fun op => [op]) (or_field3 1 r.code 6), rfl⟩

theorem encoded_ldAtHlReg (r : Reg8) : Encoded (.ldAtHlReg r) [0b01110#5 ++ r.code] 1 :=
  ⟨congrArg (fun op => [op]) (or_low3 0b01110 r.code), rfl⟩

theorem encoded_ldRegRegXr (x : XR) (r r' : Reg8) :
    Encoded (.ldRegRegXr x r r') [xrCode x, 0b01#2 ++ r.code ++ r'.code] 2 :=
  ⟨congrArg₂ (fun lead op => [lead, op]) (lead_eq_xrCode x) (ldOp_fields r.code r'.code), rfl⟩

theorem encoded_ldRegAtXr (x : XR) (r : Reg8) (d : Byte) :
    Encoded (.ldRegAtXr x r d) [xrCode x, 0b01#2 ++ r.code ++ 0b110#3, d] 2 :=
  ⟨congrArg₂ (fun lead op => [lead, op, d]) (lead_eq_xrCode x) (or_field3 1 r.code 6), rfl⟩

theorem encoded_ldAtXrReg (x : XR) (d : Byte) (r : Reg8) :
    Encoded (.ldAtXrReg x d r) [xrCode x, 0b01110#5 ++ r.code, d] 2 :=
  ⟨congrArg₂ (fun lead op => [lead, op, d]) (lead_eq_xrCode x) (or_low3 0b01110 r.code), rfl⟩

theorem encoded_ldAtXrN (x : XR) (d n : Byte) : Encoded (.ldAtXrN x d n) [xrCode x, 0x36, d, n] 2 :=
  ⟨congrArg (fun lead => [lead, 0x36, d, n]) (lead_eq_xrCode x), rfl⟩

theorem encoded_ldXrHalfN (x : XR) (p : Half) (n : Byte) :
    Encoded (.ldXrHalfN x p n) [xrCode x, 0b0010#4 ++ halfCode p ++ 0b110#3, n] 2 :=
  ⟨congrArg₂ (fun lead op => [lead, op, n]) (lead_eq_xrCode x) (by cases p <;> rfl), rfl⟩

theorem encoded_ldAPtr (rr : PtrPair) : Encoded (.ldAPtr rr) [0b000#3 ++ ptrPairCode rr ++ 0b1010#4] 1 := by
  cases rr <;> exact ⟨rfl, rfl⟩

theorem encoded_ldPtrA (rr : PtrPair) : Encoded (.ldPtrA rr) [0b000#3 ++ ptrPairCode rr ++ 0b0010#4] 1 := by
  cases rr <;> exact ⟨rfl, rfl⟩

end Sys2Proof.Machine
end

section
/-! PROOFS. The 8-bit loads (40_load8 R140 to R157). -/

namespace Sys2Proof.Machine

/-- A register loaded from memory: the register and the transaction, nothing else. -/
theorem setReg8_readAt (s : State) (r : Reg8) (p : Word) (v : Byte) :
    (s.readAt p).setReg8 r v = { s.setReg8 r v with bus := s.bus ++ [mr p (s.byteAt p)] } := by
  cases r <;> rfl

/-- LD r,(HL) (40_load8 R142). -/
theorem execLdRegAtHl_eq (r : Reg8) (s : State) : execLdRegAtHl r s = .next { s.setReg8 r (s.byteAt s.hl) with
    bus := s.bus ++ [mr s.hl (s.byteAt s.hl)], tstates := some 7 } := by
  rw [execLdRegAtHl, setReg8_readAt]
  rfl

/-- LD r,(XR+d) (40_load8 R145). -/
theorem execLdRegAtXr_eq (x : XR) (r : Reg8) (d : Byte) (s : State) : execLdRegAtXr x r d s =
    .next { s.setReg8 r (s.byteAt (s.ea x d)) with
      bus := s.bus ++ [mr (s.ea x d) (s.byteAt (s.ea x d))], tstates := some 19 } := by
  rw [execLdRegAtXr, setReg8_readAt]
  rfl

/-- Settles O31, form by form: the encoding, then the read and the register it loads. -/
theorem loadByteFromMemory : Obligations.LoadByteFromMemory := by
  refine ⟨?atHl, ?atXr, ?atPtr, ?atNn⟩
  case atHl => exact fun r s => ⟨encoded_ldRegAtHl r, execLdRegAtHl_eq r s⟩
  case atXr => exact fun x r d s => ⟨encoded_ldRegAtXr x r d, execLdRegAtXr_eq x r d s⟩
  case atPtr => exact fun rr s => ⟨encoded_ldAPtr rr, by cases rr <;> rfl⟩
  case atNn => exact fun _ _ => ⟨⟨rfl, rfl⟩, rfl⟩

/-- An instruction that is one write and its cost changes that byte, the transactions and the T-states alone. -/
theorem stores_of_exec_eq_writeAt {i : Instr} {s : State} {a : Word} {v : Byte} {cost : Nat}
    (h : exec i s = .next ((s.writeAt a v).took cost)) :
    ∃ t, exec i s = .next t ∧
      t = { s with mem := t.mem, bus := s.bus ++ [mw a v], tstates := some cost } ∧ Wrote s t [(a, v)] :=
  ⟨_, h, rfl, wrote_one rfl⟩

/-- Settles O32, form by form: the encoding, then the one write that the meaning is. -/
theorem storeByte : Obligations.StoreByte := by
  refine ⟨?atHlReg, ?atHlN, ?atXrReg, ?atXrN, ?atPtr, ?atNn⟩
  case atHlReg => exact fun r _ => ⟨encoded_ldAtHlReg r, stores_of_exec_eq_writeAt rfl⟩
  case atHlN => exact fun _ _ => ⟨⟨rfl, rfl⟩, stores_of_exec_eq_writeAt rfl⟩
  case atXrReg => exact fun x d r _ => ⟨encoded_ldAtXrReg x d r, stores_of_exec_eq_writeAt rfl⟩
  case atXrN => exact fun x d n _ => ⟨encoded_ldAtXrN x d n, stores_of_exec_eq_writeAt rfl⟩
  case atPtr => exact fun rr _ => ⟨encoded_ldPtrA rr, stores_of_exec_eq_writeAt (by cases rr <;> rfl)⟩
  case atNn => exact fun _ _ => ⟨⟨rfl, rfl⟩, stores_of_exec_eq_writeAt rfl⟩

/-- The flags of LD A,I and LD A,R: PV is IFF2 and C is kept (40_load8 R152, R153). -/
theorem flagsAre_loadIrFlags (v : Byte) (iff2 : Bool) (f : Byte) : FlagsAre (loadIrFlags v iff2 f)
    (v.getLsbD 7) (v == 0) (v.getLsbD 5) false (v.getLsbD 3) iff2 false (f.getLsbD 0) :=
  flagsAre_flagsSZXY ..

/-- Settles O33: the two loads of A write the flags of `loadIrFlags`, the two loads from A none. -/
theorem loadInterruptAndRefresh : Obligations.LoadInterruptAndRefresh := by
  refine ⟨?ldAI, ?ldAR, ?ldIA, ?ldRA⟩
  case ldAI => exact fun s => ⟨⟨rfl, rfl⟩, loadIrFlags s.i s.iff2 s.f, rfl, flagsAre_loadIrFlags ..⟩
  case ldAR => exact fun s => ⟨⟨rfl, rfl⟩, loadIrFlags s.r s.iff2 s.f, rfl, flagsAre_loadIrFlags ..⟩
  case ldIA => exact fun _ => ⟨⟨rfl, rfl⟩, rfl⟩
  case ldRA => exact fun _ => ⟨⟨rfl, rfl⟩, rfl⟩

/-- Settles O30, form by form; in the forms with XRH and XRL, the byte read and the place written are split by
whether they are a half of XR. -/
theorem loadByteRegister : Obligations.LoadByteRegister := by
  refine ⟨?regReg, ?regN, ?regRegXr, ?xrHalfN⟩
  case regReg => exact fun r r' _ => ⟨encoded_ldRegReg r r', rfl⟩
  case regN => exact fun r n _ => ⟨encoded_ldRegN r n, rfl⟩
  case regRegXr =>
    refine fun x r r' s => ⟨encoded_ldRegRegXr x r r', ?_⟩
    intro v
    have hv : s.reg8Xr x r' = v := by cases r' <;> rfl
    clear_value v
    subst hv
    cases r <;> rfl
  case xrHalfN => exact fun x p n _ => ⟨encoded_ldXrHalfN x p n, by cases p <;> rfl⟩

end Sys2Proof.Machine
end

section
/-! PROOFS. The encodings of the 16-bit loads (41_load16): an opcode byte is written from its fields. -/

namespace Sys2Proof.Machine

/-- A field put in the clear bits 5:4 of an opcode byte (30_encoding R101). -/
theorem or_field2 : ∀ (x y : BitVec 2) (z : BitVec 4), (x ++ 0#2 ++ z) ||| field2 y = x ++ y ++ z := by
  decide +kernel

theorem or_pairField (x : BitVec 2) (rr : Pair) (z : BitVec 4) :
    (x ++ 0#2 ++ z) ||| rr.field = x ++ pairCode rr ++ z := by
  cases rr <;> exact or_field2 x _ z

theorem or_stackPairField (x : BitVec 2) (qq : StackPair) (z : BitVec 4) :
    (x ++ 0#2 ++ z) ||| qq.field = x ++ stackPairCode qq ++ z := by
  cases qq <;> exact or_field2 x _ z

/-- The prefix byte of an index row names its register (30_encoding R110). -/
theorem encoded_of_lead {i : Instr} {x : XR} {bytes : List Byte} {m1 : Nat} (h : encode i = x.lead :: bytes)
    (hm : i.m1 = m1) : Encoded i (xrCode x :: bytes) m1 :=
  ⟨lead_eq_xrCode x ▸ h, hm⟩

theorem encoded_ldPairNn (rr : Pair) (nn : Word) : Encoded (.ldPairNn rr nn)
    [0b00#2 ++ pairCode rr ++ 0b0001#4, nn.extractLsb' 0 8, nn.extractLsb' 8 8] 1 :=
  ⟨congrArg (fun op => [op, loByte nn, hiByte nn]) (or_pairField 0 rr 1), rfl⟩

theorem encoded_ldPairMem (rr : Pair) (nn : Word) : Encoded (.ldPairMem rr nn)
    [0xED, 0b01#2 ++ pairCode rr ++ 0b1011#4, nn.extractLsb' 0 8, nn.extractLsb' 8 8] 2 :=
  ⟨congrArg (fun op => [0xED, op, loByte nn, hiByte nn]) (or_pairField 1 rr 0b1011), rfl⟩

theorem encoded_ldMemPair (nn : Word) (rr : Pair) : Encoded (.ldMemPair nn rr)
    [0xED, 0b01#2 ++ pairCode rr ++ 0b0011#4, nn.extractLsb' 0 8, nn.extractLsb' 8 8] 2 :=
  ⟨congrArg (fun op => [0xED, op, loByte nn, hiByte nn]) (or_pairField 1 rr 0b0011), rfl⟩

theorem encoded_pushPair (qq : StackPair) :
    Encoded (.pushPair qq) [0b11#2 ++ stackPairCode qq ++ 0b0101#4] 1 :=
  ⟨congrArg (fun op => [op]) (or_stackPairField 3 qq 0b0101), rfl⟩

theorem encoded_popPair (qq : StackPair) :
    Encoded (.popPair qq) [0b11#2 ++ stackPairCode qq ++ 0b0001#4] 1 :=
  ⟨congrArg (fun op => [op]) (or_stackPairField 3 qq 0b0001), rfl⟩

end Sys2Proof.Machine
end

section
/-! PROOFS. The 16-bit loads (41_load16 R170 to R179). -/

namespace Sys2Proof.Machine

/-- A word read leaves everything but the transactions, low byte first (20_memory R77). -/
theorem readWordAt_eq (s : State) (a : Word) : s.readWordAt a = { s with
    bus := s.bus ++ [mr a (s.byteAt a), mr (a + 1) (s.byteAt (a + 1))] } :=
  congrArg (fun bus => { s with bus := bus }) (List.append_assoc ..)

/-- A word write leaves everything but memory and the transactions, low byte first (20_memory R77). -/
theorem writeWordAt_eq (s : State) (a v : Word) : s.writeWordAt a v = { s with
    mem := (s.writeWordAt a v).mem, bus := s.bus ++ [mw a (loByte v), mw (a + 1) (hiByte v)] } :=
  congrArg (fun bus => { s with mem := (s.writeWordAt a v).mem, bus := bus }) (List.append_assoc ..)

/-- A word write writes its two bytes (20_memory R77). -/
theorem wrote_writeWordAt (s : State) (a v : Word) :
    Wrote s (s.writeWordAt a v) [(a, loByte v), (a + 1, hiByte v)] :=
  wrote_two rfl

/-- HL takes two bytes, one in each half (10_state R33). -/
theorem setHl_mkWord (s : State) (hi lo : Byte) : s.setHl (mkWord hi lo) = { s with h := hi, l := lo } := by
  rw [State.setHl, hiByte_mkWord, loByte_mkWord]

/-- LD HL,(nn) (41_load16 R172). -/
theorem execLdHlMem_eq (nn : Word) (s : State) : execLdHlMem nn s = .next { s with
    l := s.byteAt nn, h := s.byteAt (nn + 1)
    bus := s.bus ++ [mr nn (s.byteAt nn), mr (nn + 1) (s.byteAt (nn + 1))], tstates := some 16 } := by
  rw [execLdHlMem, State.wordAt, setHl_mkWord, readWordAt_eq]
  rfl

/-- LD dd,(nn) (41_load16 R173). -/
theorem execLdPairMem_eq (rr : Pair) (nn : Word) (s : State) : execLdPairMem rr nn s =
    .next { s.setPair rr (s.wordAt nn) with
      bus := s.bus ++ [mr nn (s.byteAt nn), mr (nn + 1) (s.byteAt (nn + 1))], tstates := some 20 } := by
  rw [execLdPairMem, readWordAt_eq]
  cases rr <;> rfl

/-- LD XR,(nn) (41_load16 R174). -/
theorem execLdXrMem_eq (x : XR) (nn : Word) (s : State) : execLdXrMem x nn s =
    .next { s.setXr x (s.wordAt nn) with
      bus := s.bus ++ [mr nn (s.byteAt nn), mr (nn + 1) (s.byteAt (nn + 1))], tstates := some 20 } := by
  rw [execLdXrMem, readWordAt_eq]
  cases x <;> rfl

/-- An instruction that is one word write and its cost changes those two bytes, the transactions and the
T-states alone. -/
theorem stores_of_exec_eq_writeWordAt {i : Instr} {s : State} {a v : Word} {cost : Nat}
    (h : exec i s = .next ((s.writeWordAt a v).took cost)) :
    ∃ t, exec i s = .next t ∧
      t = { s with
        mem := t.mem, bus := s.bus ++ [mw a (loByte v), mw (a + 1) (hiByte v)], tstates := some cost } ∧
      Wrote s t [(a, loByte v), (a + 1, hiByte v)] :=
  ⟨_, h, congrArg (State.took · cost) (writeWordAt_eq s a v), wrote_writeWordAt s a v⟩

/-- Settles O35, form by form: the encoding, then the word that is read or the word that is written. -/
theorem loadPairMemory : Obligations.LoadPairMemory := by
  refine ⟨?hlMem, ?pairMem, ?xrMem, ?memHl, ?memPair, ?memXr⟩
  case hlMem => exact fun nn s => ⟨⟨rfl, rfl⟩, execLdHlMem_eq nn s⟩
  case pairMem => exact fun rr nn s => ⟨encoded_ldPairMem rr nn, execLdPairMem_eq rr nn s⟩
  case xrMem => exact fun x nn s => ⟨encoded_of_lead rfl rfl, execLdXrMem_eq x nn s⟩
  case memHl => exact fun _ _ => ⟨⟨rfl, rfl⟩, stores_of_exec_eq_writeWordAt rfl⟩
  case memPair => exact fun rr nn _ => ⟨encoded_ldMemPair nn rr, stores_of_exec_eq_writeWordAt rfl⟩
  case memXr => exact fun _ _ _ => ⟨encoded_of_lead rfl rfl, stores_of_exec_eq_writeWordAt rfl⟩

/-- Settles O34, form by form: the encoding, then the register that is loaded. -/
theorem loadPairRegister : Obligations.LoadPairRegister := by
  refine ⟨?pairNn, ?xrNn, ?spHl, ?spXr⟩
  case pairNn => exact fun rr nn _ => ⟨encoded_ldPairNn rr nn, rfl⟩
  case xrNn => exact fun _ _ _ => ⟨encoded_of_lead rfl rfl, rfl⟩
  case spHl => exact fun _ => ⟨⟨rfl, rfl⟩, rfl⟩
  case spXr => exact fun _ _ => ⟨encoded_of_lead rfl rfl, rfl⟩

end Sys2Proof.Machine
end

section
/-! PROOFS. PUSH and POP (41_load16 R180 to R183). -/

namespace Sys2Proof.Machine

/-- `push_eq` with the two steps of SP as one. -/
theorem push_eq_sub_two (s : State) (v : Word) : s.push v = { s with
    sp := s.sp - 2, mem := (s.push v).mem
    bus := s.bus ++ [mw (s.sp - 1) (hiByte v), mw (s.sp - 2) (loByte v)] } := by
  have hsp : s.sp - 1 - 1 = s.sp - 2 := sub_one_sub_one s.sp
  refine (push_eq s v).trans ?_
  rw [hsp, List.append_assoc]
  rfl

/-- A push writes the bytes of its word, the high byte first (20_memory R80). -/
theorem wrote_push (s : State) (v : Word) :
    Wrote s (s.push v) [(s.sp - 1, hiByte v), (s.sp - 2, loByte v)] :=
  sub_one_sub_one s.sp ▸ wrote_two (push_mem s v)

/-- `pop_eq` with the two steps of SP as one. -/
theorem pop_eq_add_two (s : State) : s.pop = (mkWord (s.byteAt (s.sp + 1)) (s.byteAt s.sp), { s with
    sp := s.sp + 2
    bus := s.bus ++ [mr s.sp (s.byteAt s.sp), mr (s.sp + 1) (s.byteAt (s.sp + 1))] }) := by
  rw [pop_eq, add_assoc, List.append_assoc]
  rfl

/-- A stack pair takes two bytes, one in each half, and only AF takes F (10_state R33, R38). -/
theorem setStackPair_mkWord (s : State) (qq : StackPair) (hi lo : Byte) :
    s.setStackPair qq (mkWord hi lo) = match qq with
      | .bc => { s with b := hi, c := lo }
      | .de => { s with d := hi, e := lo }
      | .hl => { s with h := hi, l := lo }
      | .af => { s with a := hi, f := lo } := by
  cases qq <;>
    simp only [State.setStackPair, State.setBc, State.setDe, State.setHl, State.setAf, hiByte_mkWord, loByte_mkWord]

/-- POP qq (41_load16 R182). -/
theorem execPopPair_eq (qq : StackPair) (s : State) : execPopPair qq s = .next ({ s with
    sp := s.sp + 2, bus := s.bus ++ [mr s.sp (s.byteAt s.sp), mr (s.sp + 1) (s.byteAt (s.sp + 1))]
    tstates := some 10 }.setStackPair qq (mkWord (s.byteAt (s.sp + 1)) (s.byteAt s.sp))) := by
  rw [execPopPair, pop_eq_add_two]
  cases qq <;> rfl

/-- POP XR (41_load16 R183). -/
theorem execPopXr_eq (x : XR) (s : State) : execPopXr x s = .next ({ s with
    sp := s.sp + 2, bus := s.bus ++ [mr s.sp (s.byteAt s.sp), mr (s.sp + 1) (s.byteAt (s.sp + 1))]
    tstates := some 14 }.setXr x (mkWord (s.byteAt (s.sp + 1)) (s.byteAt s.sp))) := by
  rw [execPopXr, pop_eq_add_two]
  cases x <;> rfl

/-- An instruction that is one push and its cost changes SP, the two bytes, the transactions and the T-states
alone. -/
theorem pushes_of_exec_eq_push {i : Instr} {s : State} {v : Word} {cost : Nat}
    (h : exec i s = .next ((s.push v).took cost)) :
    ∃ t, exec i s = .next t ∧
      t = { s with
        sp := s.sp - 2, mem := t.mem
        bus := s.bus ++ [mw (s.sp - 1) (hiByte v), mw (s.sp - 2) (loByte v)], tstates := some cost } ∧
      Wrote s t [(s.sp - 1, hiByte v), (s.sp - 2, loByte v)] :=
  ⟨_, h, congrArg (State.took · cost) (push_eq_sub_two s v), wrote_push s v⟩

/-- Settles O36, form by form: the encoding, then the push, or the pop and the pair that takes its bytes. -/
theorem pushAndPop : Obligations.PushAndPop := by
  refine ⟨?pushPair, ?pushXr, ?popPair, ?popXr⟩
  case pushPair => exact fun qq _ => ⟨encoded_pushPair qq, pushes_of_exec_eq_push rfl⟩
  case pushXr => exact fun _ _ => ⟨encoded_of_lead rfl rfl, pushes_of_exec_eq_push rfl⟩
  case popPair =>
    refine fun qq s => ⟨encoded_popPair qq, (execPopPair_eq qq s).trans (congrArg Host.Outcome.next ?_)⟩
    exact (setStackPair_mkWord ..).trans (by cases qq <;> rfl)
  case popXr => exact fun x s => ⟨encoded_of_lead rfl rfl, execPopXr_eq x s⟩

end Sys2Proof.Machine
end

section
/-! PROOFS. The exchanges of registers (42_exchange_block R200 to R202). -/

namespace Sys2Proof.Machine

/-- EX DE,HL (42_exchange_block R200). -/
theorem execExDeHl_eq (s : State) :
    execExDeHl s = .next { s with d := s.h, e := s.l, h := s.d, l := s.e, tstates := some 4 } := rfl

/-- An index prefix with no effect on its instruction: the instruction's own row, 4 T-states later
(30_encoding R112). -/
theorem exec_prefixXrPass (x : XR) (i : Instr) (s : State) :
    exec (.prefixXrPass x i) s = (runRow i s).addT 4 := rfl

/-- Settles O37, form by form: the encoding, then the exchange; under an index prefix it is the exchange of the
plain form with 4 T-states more. -/
theorem exchangeRegisters : Obligations.ExchangeRegisters := by
  refine ⟨?exDeHl, ?prefixed, ?exAfAf, ?exx⟩
  case exDeHl => exact fun s => ⟨⟨rfl, rfl⟩, execExDeHl_eq s⟩
  case prefixed =>
    refine fun x s => ⟨encoded_of_lead rfl rfl, ?_⟩
    exact (exec_prefixXrPass x .exDeHl s).trans (congrArg (Result.addT · 4) (execExDeHl_eq s))
  case exAfAf => exact fun _ => ⟨⟨rfl, rfl⟩, rfl⟩
  case exx => exact fun _ => ⟨⟨rfl, rfl⟩, rfl⟩

end Sys2Proof.Machine
end

section
/-! PROOFS. The accumulator operations in every operand form (43_alu8 R232 to R240): an operation and a form of
its operand choose the instruction, so encoding, transactions and cost are those of the form, and A and F are
those of `alu8`. -/

namespace Sys2Proof.Machine

/-- The opcode of an operation on a register has the register in its low field (43_alu8 R232). -/
theorem encoded_aluReg (op : AluOp) (r : Reg8) :
    Encoded (aluInstr op (.reg r)) [0b10#2 ++ aluCode op ++ r.code] 1 := by
  have h : encode (aluInstr op (.reg r)) = [(0b10#2 ++ aluCode op ++ 0#3) ||| low3 r.code] := by
    cases op <;> rfl
  exact ⟨h.trans (congrArg (fun b => [b]) (or_low3 (0b10#2 ++ aluCode op) r.code)), by cases op <;> rfl⟩

/-- The encoding of an accumulator operation is its form's, with the operation in the alu field
(43_alu8 R232). -/
theorem encoded_aluInstr (op : AluOp) (src : AluSrc) : Encoded (aluInstr op src) (src.bytes op) src.m1 := by
  cases src with
  | reg r => exact encoded_aluReg op r
  | imm n => cases op <;> exact ⟨rfl, rfl⟩
  | atHl => cases op <;> exact ⟨rfl, rfl⟩
  | atXr x d => cases op <;> exact encoded_of_lead rfl rfl
  | half x p => cases p <;> cases op <;> exact encoded_of_lead rfl rfl

/-- An accumulator operation writes A and F alone, with the transactions and the T-states of its form
(43_alu8 R232). -/
theorem exec_aluInstr (op : AluOp) (src : AluSrc) (s : State) : exec (aluInstr op src) s = .next { s with
    a := (alu8 op s.a (src.value s) s.f).1, f := (alu8 op s.a (src.value s) s.f).2
    bus := s.bus ++ src.reads s, tstates := some src.cost } := by
  cases src with
  | reg | imm | half =>
    -- no data transaction
    rw [AluSrc.reads, List.append_nil]
    cases op <;> rfl
  | atHl | atXr => cases op <;> rfl

/-- An accumulator operation from what `alu8` gives for A and for F. -/
theorem accumulates {op : AluOp} {src : AluSrc} {s : State} {a : Byte} {flags : Byte → Prop}
    (h : (alu8 op s.a (src.value s) s.f).1 = a ∧ flags (alu8 op s.a (src.value s) s.f).2) :
    Encoded (aluInstr op src) (src.bytes op) src.m1 ∧
    ∃ f, exec (aluInstr op src) s = .next { s with
        a := a, f := f, bus := s.bus ++ src.reads s, tstates := some src.cost } ∧ flags f := by
  obtain ⟨rfl, hf⟩ := h
  exact ⟨encoded_aluInstr op src, _, exec_aluInstr op src s, hf⟩

/-- ADD and ADC are ADD8 without and with the carry of F (43_alu8 R233, R234). -/
theorem alu8_add_eq (withCarry : Bool) (a v f : Byte) :
    alu8 (if withCarry then .adc else .add) a v f = add8 a v (withCarry && f.getLsbD 0) := by
  cases withCarry <;> rfl

/-- Settles O41: A and F are those of ADD8. -/
theorem addToAccumulator : Obligations.AddToAccumulator := by
  intro withCarry src s op v c sum res
  refine accumulates ?_
  rw [alu8_add_eq]
  exact add8_spec ..

/-- SUB, SBC and CP by SUB8: CP keeps A and takes Y and X from the operand (43_alu8 R231, R235, R236, R240). -/
theorem alu8_subtract_spec {op : AluOp} (h : op = .sub ∨ op = .sbc ∨ op = .cp) (a v f : Byte) :
    let c := (op == .sbc && f.getLsbD 0).toNat
    let res := a - v - BitVec.ofNat 8 c
    let xy := if op = .cp then v else res
    (alu8 op a v f).1 = (if op = .cp then a else res) ∧
    FlagsAre (alu8 op a v f).2 (res.getLsbD 7) (res == 0) (xy.getLsbD 5)
      (decide (a.toNat % 16 < v.toNat % 16 + c)) (xy.getLsbD 3)
      (a.getLsbD 7 != v.getLsbD 7 && res.getLsbD 7 != a.getLsbD 7) true (decide (a.toNat < v.toNat + c)) := by
  obtain ⟨hres, hf⟩ := sub8_spec a v (op == .sbc && f.getLsbD 0)
  rw [hres] at hf
  obtain rfl | rfl | rfl := h
  · exact ⟨hres, hf⟩
  · exact ⟨hres, hf⟩
  · exact ⟨rfl, flagsAre_withYX hf ..⟩

/-- Settles O42: A and F are those of SUB8, but for what CP keeps. -/
theorem subtractFromAccumulator : Obligations.SubtractFromAccumulator :=
  fun _ _ _ h => accumulates (alu8_subtract_spec h ..)

/-- AND, XOR and OR: the result, and its flags with parity (43_alu8 R237 to R239). -/
theorem alu8_logic_spec {op : AluOp} (h : op = .and ∨ op = .xor ∨ op = .or) (a v f : Byte) :
    let res := if op = .and then a &&& v else if op = .xor then a ^^^ v else a ||| v
    (alu8 op a v f).1 = res ∧
    FlagsAre (alu8 op a v f).2 (res.getLsbD 7) (res == 0) (res.getLsbD 5) (op == .and) (res.getLsbD 3)
      (evenParity res) false false := by
  obtain rfl | rfl | rfl := h <;> exact ⟨rfl, flagsAre_flagsSZXYP ..⟩

/-- Settles O43: A is the bitwise result and F its flags. -/
theorem logicOnAccumulator : Obligations.LogicOnAccumulator :=
  fun _ _ _ h => accumulates (alu8_logic_spec h ..)

end Sys2Proof.Machine
end

section
/-! PROOFS. The read-modify-write of an operand in each of its forms, and INC and DEC (43_alu8 R241, R242). -/

namespace Sys2Proof.Machine

/-- The form's own read-modify-write: what an instruction with this operand does, cost apart. -/
def Operand.modify (m : Operand) (s : State) (op : Byte → Byte → Byte × Byte) : State :=
  match m with
  | .reg r => s.modifyReg r op
  | .atHl => s.modifyAt s.hl op
  | .atXr x d => s.modifyAt (s.ea x d) op
  | .half x p => s.modifyXrHalf x p op
  | .copy x d r => s.modifyAtCopy (s.ea x d) r op

/-- Writing a result to a register touches no memory. -/
@[simp] theorem Operand.setReg_mem (m : Operand) (s : State) (res : Byte) : (m.setReg s res).mem = s.mem := by
  cases m <;> simp [Operand.setReg]

/-- Writing a result to a register is no transaction. -/
@[simp] theorem Operand.setReg_bus (m : Operand) (s : State) (res : Byte) : (m.setReg s res).bus = s.bus := by
  cases m <;> simp [Operand.setReg]

/-- A form with no address: the register and F. -/
theorem modified_of_addr_none {m : Operand} {s : State} (hm : m.addr s = none) (res f : Byte) (cost : Nat) :
    Modified m s { m.setReg s res with f := f, tstates := some cost } res f cost := by
  simp [Modified, Operand.events, Operand.writes, hm, wrote_nil]

/-- A form with an address: the read, the write, F, and the register that takes a copy. -/
theorem modified_of_addr_some {m : Operand} {s : State} {a : Word} (hm : m.addr s = some a) (res f : Byte)
    (cost : Nat) : Modified m s { m.setReg s res with
      f := f, mem := memSet s.mem a.toNat res
      bus := s.bus ++ [mr a (s.byteAt a)] ++ [mw a res], tstates := some cost } res f cost := by
  simp [Modified, Operand.events, Operand.writes, hm, wrote_one]

/-- A read-modify-write changes its operand and F alone, in every form (43_alu8 R241, 46_rotate_shift R314). -/
theorem modified_modify (m : Operand) (s : State) (op : Byte → Byte → Byte × Byte) (cost : Nat) :
    Modified m s ((m.modify s op).took cost) (op (m.value s) s.f).1 (op (m.value s) s.f).2 cost := by
  cases m with
  | reg | half => exact modified_of_addr_none rfl ..
  | atHl | atXr =>
    rw [Operand.modify, modifyAt_eq]
    exact modified_of_addr_some rfl ..
  | copy x d r =>
    rw [Operand.modify, modifyAtCopy_eq]
    exact modified_of_addr_some rfl ..

/-- An instruction that is a read-modify-write and its cost changes its operand, and F to the operation's. -/
theorem modifies_of_exec_eq_modify {i : Instr} {m : Operand} {s : State} {op : Byte → Byte → Byte × Byte}
    {cost : Nat} (h : exec i s = .next ((m.modify s op).took cost)) :
    ∃ t, exec i s = .next t ∧ Modified m s t (op (m.value s) s.f).1 t.f cost ∧
      t.f = (op (m.value s) s.f).2 := by
  have hm := modified_modify m s op cost
  have hf : ((m.modify s op).took cost).f = (op (m.value s) s.f).2 := congrArg State.f hm.1
  exact ⟨_, h, hf.symm ▸ hm, hf⟩

/-- INC m is its form's read-modify-write with `inc8` (43_alu8 R241). -/
theorem exec_incInstr {m : Operand} {i : Instr} (h : incInstr m = some i) (s : State) :
    exec i s = .next ((m.modify s inc8).took m.incCost) := by
  cases m <;> cases h <;> rfl

/-- DEC m is its form's read-modify-write with `dec8` (43_alu8 R242). -/
theorem exec_decInstr {m : Operand} {i : Instr} (h : decInstr m = some i) (s : State) :
    exec i s = .next ((m.modify s dec8).took m.incCost) := by
  cases m <;> cases h <;> rfl

theorem encoded_incInstr {m : Operand} {i : Instr} (h : incInstr m = some i) :
    Encoded i (m.incBytes 0b100) m.incM1 := by
  cases m <;> cases h
  case reg r => exact ⟨congrArg (fun b => [b]) (or_field3 0 r.code 4), rfl⟩
  case atHl => exact ⟨rfl, rfl⟩
  case atXr => exact encoded_of_lead rfl rfl
  case half x p => cases p <;> exact encoded_of_lead rfl rfl

theorem encoded_decInstr {m : Operand} {i : Instr} (h : decInstr m = some i) :
    Encoded i (m.incBytes 0b101) m.incM1 := by
  cases m <;> cases h
  case reg r => exact ⟨congrArg (fun b => [b]) (or_field3 0 r.code 5), rfl⟩
  case atHl => exact ⟨rfl, rfl⟩
  case atXr => exact encoded_of_lead rfl rfl
  case half x p => cases p <;> exact encoded_of_lead rfl rfl

/-- The flags of INC: Z where the operand was 0xFF (43_alu8 R241). -/
theorem flagsAre_inc8 (v f : Byte) : FlagsAre (inc8 v f).2 ((v + 1).getLsbD 7) (v == 0xFF) ((v + 1).getLsbD 5)
    (v.toNat % 16 == 15) ((v + 1).getLsbD 3) (v == 0x7F) false (f.getLsbD 0) := by
  have hz : (v + 1 == 0) = (v == 0xFF) := decide_eq_decide.mpr add_eq_zero_iff_eq_neg
  rw [← hz]
  exact flagsAre_flagsSZXY ..

/-- The flags of DEC: Z where the operand was 1 (43_alu8 R242). -/
theorem flagsAre_dec8 (v f : Byte) : FlagsAre (dec8 v f).2 ((v - 1).getLsbD 7) (v == 0x01) ((v - 1).getLsbD 5)
    (v.toNat % 16 == 0) ((v - 1).getLsbD 3) (v == 0x80) true (f.getLsbD 0) := by
  have hz : (v - 1 == 0) = (v == 0x01) := decide_eq_decide.mpr sub_eq_zero
  rw [← hz]
  exact flagsAre_flagsSZXY ..

/-- Settles O44: INC and DEC are the read-modify-write of their operand, with the flags of `inc8` and `dec8`. -/
theorem incrementAndDecrement : Obligations.IncrementAndDecrement := by
  refine fun m s => ⟨fun i hi => ?inc, fun i hi => ?dec⟩
  case inc =>
    obtain ⟨t, ht, hm, hf⟩ := modifies_of_exec_eq_modify (exec_incInstr hi s)
    exact ⟨encoded_incInstr hi, t, ht, hm, hf ▸ flagsAre_inc8 ..⟩
  case dec =>
    obtain ⟨t, ht, hm, hf⟩ := modifies_of_exec_eq_modify (exec_decInstr hi s)
    exact ⟨encoded_decInstr hi, t, ht, hm, hf ▸ flagsAre_dec8 ..⟩

end Sys2Proof.Machine
end

section
/-! PROOFS. DAA: the correction of the decision table, and what A and F become by it (44_general R260). -/

namespace Sys2Proof.Machine

/-- The correction that R260's table gives for F.C, A[7:4], F.H and A[3:0], its rows gathered by the two flags. -/
def daaCorrection (c : Bool) (hi : Nat) (h : Bool) (lo : Nat) : Byte :=
  match c, h with
  | false, false => if hi ≤ 9 ∧ lo ≤ 9 then 0x00 else if hi ≤ 8 then 0x06 else if lo ≤ 9 then 0x60 else 0x66
  | false, true => if hi ≤ 9 ∧ lo ≤ 9 then 0x06 else if hi ≤ 8 then 0x06 else 0x66
  | true, false => if lo ≤ 9 then 0x60 else 0x66
  | true, true => 0x66

/-- The table row by row and the table by flags agree on the correction: a low digit to 9 splits the high digit
at 9, a low digit past it at 8. -/
theorem daaTable_fst (c : Bool) (hi : Nat) (h : Bool) (lo : Nat) :
    (daaTable c hi h lo).1 = daaCorrection c hi h lo := by
  rcases Nat.lt_or_ge 9 lo with hlo | hlo
  · have hlo' : 10 ≤ lo ∧ ¬ lo ≤ 9 := by omega
    have hhi : 9 ≤ hi ↔ ¬ hi ≤ 8 := by omega
    by_cases h8 : hi ≤ 8 <;> cases c <;> cases h <;> simp [daaTable, daaCorrection, hlo', hhi, h8]
  · have hlo' : ¬ 10 ≤ lo := by omega
    have hhi : 10 ≤ hi ↔ ¬ hi ≤ 9 := by omega
    have h8 : ¬ hi ≤ 9 → 8 < hi := by omega
    by_cases h9 : hi ≤ 9 <;> cases c <;> cases h <;> simp [daaTable, daaCorrection, hlo, hlo', hhi, h9, h8]

/-- The gathered table is the closed form that R260 gives beside it. -/
theorem daaCorrection_eq (a : Byte) (c h : Bool) : daaCorrection c (a.toNat / 16) h (a.toNat % 16) =
    (if h || decide (9 < a.toNat % 16) then 0x06 else 0x00) +
      (if c || decide (0x99 < a.toNat) then 0x60 else 0x00) := by
  rw [← daaTable_fst, daaTable_eq]

/-- DAA adds or subtracts the correction, as F.N says; the flags are those of the new A (44_general R260). -/
theorem daa8_spec (a f : Byte) :
    let corr := daaCorrection (flagC f) (a.toNat / 16) (flagH f) (a.toNat % 16)
    let res := if flagN f then a - corr else a + corr
    (daa8 a f).1 = res ∧ FlagsAre (daa8 a f).2 (res.getLsbD 7) (res == 0) (res.getLsbD 5)
      (if flagN f then flagH f && decide (a.toNat % 16 < 6) else decide (9 < a.toNat % 16))
      (res.getLsbD 3) (evenParity res) (flagN f) (flagC f || decide (0x99 < a.toNat)) := by
  have hcarry : (daaTable (flagC f) (a.toNat / 16) (flagH f) (a.toNat % 16)).2 =
      (flagC f || decide (0x99 < a.toNat)) := by rw [daaTable_eq]
  rw [← daaTable_fst, ← hcarry]
  exact ⟨rfl, flagsAre_flagsSZXYP ..⟩

/-- Settles O45: the correction is the closed form, and A and F are those of `daa8`. -/
theorem decimalAdjust : Obligations.DecimalAdjust := by
  intro s
  obtain ⟨ha, hf⟩ := daa8_spec s.a s.f
  exact ⟨⟨rfl, rfl⟩, daaCorrection_eq .., _, ha ▸ rfl, hf⟩

end Sys2Proof.Machine
end

section
/-! PROOFS. The encodings of the 16-bit arithmetic instructions (45_alu16): an opcode byte is written from its
fields. -/

namespace Sys2Proof.Machine

theorem or_idxPairField (x : BitVec 2) (pp : IdxPair) (z : BitVec 4) :
    (x ++ 0#2 ++ z) ||| pp.field = x ++ idxPairCode pp ++ z := by
  cases pp <;> exact or_field2 x _ z

theorem encoded_addHlPair (rr : Pair) : Encoded (.addHlPair rr) [0b00#2 ++ pairCode rr ++ 0b1001#4] 1 :=
  ⟨congrArg (fun op => [op]) (or_pairField 0 rr 0b1001), rfl⟩

theorem encoded_addXrPair (x : XR) (pp : IdxPair) :
    Encoded (.addXrPair x pp) [xrCode x, 0b00#2 ++ idxPairCode pp ++ 0b1001#4] 2 :=
  encoded_of_lead (congrArg (fun op => [x.lead, op]) (or_idxPairField 0 pp 0b1001)) rfl

theorem encoded_adcHlPair (rr : Pair) : Encoded (.adcHlPair rr) [0xED, 0b01#2 ++ pairCode rr ++ 0b1010#4] 2 :=
  ⟨congrArg (fun op => [0xED, op]) (or_pairField 1 rr 0b1010), rfl⟩

theorem encoded_sbcHlPair (rr : Pair) : Encoded (.sbcHlPair rr) [0xED, 0b01#2 ++ pairCode rr ++ 0b0010#4] 2 :=
  ⟨congrArg (fun op => [0xED, op]) (or_pairField 1 rr 0b0010), rfl⟩

theorem encoded_incPair (rr : Pair) : Encoded (.incPair rr) [0b00#2 ++ pairCode rr ++ 0b0011#4] 1 :=
  ⟨congrArg (fun op => [op]) (or_pairField 0 rr 0b0011), rfl⟩

theorem encoded_decPair (rr : Pair) : Encoded (.decPair rr) [0b00#2 ++ pairCode rr ++ 0b1011#4] 1 :=
  ⟨congrArg (fun op => [op]) (or_pairField 0 rr 0b1011), rfl⟩

end Sys2Proof.Machine
end

section
/-! PROOFS. The 16-bit arithmetic instructions (45_alu16 R290 to R299). -/

namespace Sys2Proof.Machine

/-- ADD16's result and its flags: S, Z and PV are those before (45_alu16 R290). -/
theorem add16_spec (a b : Word) (f : Byte) :
    (add16 a b f).1 = a + b ∧
      FlagsAre (add16 a b f).2 (f.getLsbD 7) (f.getLsbD 6) ((a + b).getLsbD 13)
        (decide (4095 < a.toNat % 4096 + b.toNat % 4096)) ((a + b).getLsbD 11) (f.getLsbD 2) false
        (decide (65535 < a.toNat + b.toNat)) :=
  ⟨rfl, flagsAre_mkFlags ..⟩

/-- ADC16's result and its flags (45_alu16 R291). -/
theorem adc16_spec (a b : Word) (c : Bool) :
    let sum := a.toNat + b.toNat + c.toNat
    let res := BitVec.ofNat 16 sum
    (adc16 a b c).1 = res ∧
      FlagsAre (adc16 a b c).2 (res.getLsbD 15) (res == 0) (res.getLsbD 13)
        (decide (4095 < a.toNat % 4096 + b.toNat % 4096 + c.toNat)) (res.getLsbD 11)
        (a.getLsbD 15 == b.getLsbD 15 && res.getLsbD 15 != a.getLsbD 15) false (decide (65535 < sum)) :=
  ⟨rfl, flagsAre_mkFlags ..⟩

/-- SBC16's result and its flags, with the borrows as comparisons (45_alu16 R291). -/
theorem sbc16_spec (a b : Word) (c : Bool) :
    let res := a - b - BitVec.ofNat 16 c.toNat
    (sbc16 a b c).1 = res ∧
      FlagsAre (sbc16 a b c).2 (res.getLsbD 15) (res == 0) (res.getLsbD 13)
        (decide (a.toNat % 4096 < b.toNat % 4096 + c.toNat)) (res.getLsbD 11)
        (a.getLsbD 15 != b.getLsbD 15 && res.getLsbD 15 != a.getLsbD 15) true
        (decide (a.toNat < b.toNat + c.toNat)) := by
  have borrow_iff (m n k : Nat) : (m : Int) - n - k < 0 ↔ m < n + k := by omega
  rw [← ofInt_sub16, ← decide_eq_decide.mpr (borrow_iff (a.toNat % 4096) ..),
    ← decide_eq_decide.mpr (borrow_iff a.toNat ..)]
  exact ⟨rfl, flagsAre_mkFlags ..⟩

/-- An instruction that writes a word to HL, the flags and its cost changes H, L, F and the T-states alone. -/
theorem writesHl_of_exec_eq {i : Instr} {s : State} {p : Word × Byte} {cost : Nat} {res : Word}
    {flags : Byte → Prop} (h : exec i s = .next (((s.setHl p.1).setF p.2).took cost))
    (hp : p.1 = res ∧ flags p.2) :
    ∃ f, exec i s = .next { s with
        h := res.extractLsb' 8 8, l := res.extractLsb' 0 8, f := f, tstates := some cost } ∧ flags f := by
  obtain ⟨rfl, hf⟩ := hp
  exact ⟨p.2, h, hf⟩

/-- ADD HL,ss is ADD16 on HL and the pair (45_alu16 R292). -/
theorem exec_addHlPair (rr : Pair) (s : State) : exec (.addHlPair rr) s = .next
    (((s.setHl (add16 s.hl (s.pair rr) s.f).1).setF (add16 s.hl (s.pair rr) s.f).2).took 11) := rfl

/-- ADC HL,ss is ADC16 on HL, the pair and the carry of F (45_alu16 R293). -/
theorem exec_adcHlPair (rr : Pair) (s : State) : exec (.adcHlPair rr) s = .next
    (((s.setHl (adc16 s.hl (s.pair rr) (s.f.getLsbD 0)).1).setF
      (adc16 s.hl (s.pair rr) (s.f.getLsbD 0)).2).took 15) := rfl

/-- SBC HL,ss is SBC16 on HL, the pair and the carry of F (45_alu16 R294). -/
theorem exec_sbcHlPair (rr : Pair) (s : State) : exec (.sbcHlPair rr) s = .next
    (((s.setHl (sbc16 s.hl (s.pair rr) (s.f.getLsbD 0)).1).setF
      (sbc16 s.hl (s.pair rr) (s.f.getLsbD 0)).2).took 15) := rfl

/-- ADD XR,pp is ADD16 on XR and the pair (45_alu16 R295). -/
theorem exec_addXrPair (x : XR) (pp : IdxPair) (s : State) : exec (.addXrPair x pp) s = .next
    (((s.setXr x (add16 (s.xr x) (s.idxPair x pp) s.f).1).setF
      (add16 (s.xr x) (s.idxPair x pp) s.f).2).took 15) := rfl

/-- Settles O49, form by form: the encoding, then the register and the flags by ADD16, ADC16 or SBC16. -/
theorem wordArithmetic : Obligations.WordArithmetic := by
  refine ⟨?addHl, ?addXr, ?adcHl, ?sbcHl⟩
  case addHl => exact fun rr _ => ⟨encoded_addHlPair rr, writesHl_of_exec_eq (exec_addHlPair ..) (add16_spec ..)⟩
  case addXr =>
    refine fun x pp s => ⟨encoded_addXrPair x pp, ?_⟩
    intro v
    have hv : s.idxPair x pp = v := by cases pp <;> rfl
    obtain ⟨hres, hf⟩ := add16_spec (s.xr x) v s.f
    rw [exec_addXrPair, hv, hres]
    exact ⟨_, rfl, hf⟩
  case adcHl => exact fun rr _ => ⟨encoded_adcHlPair rr, writesHl_of_exec_eq (exec_adcHlPair ..) (adc16_spec ..)⟩
  case sbcHl => exact fun rr _ => ⟨encoded_sbcHlPair rr, writesHl_of_exec_eq (exec_sbcHlPair ..) (sbc16_spec ..)⟩

/-- Settles O50, form by form: the encoding, then the register that counts. -/
theorem wordIncrementAndDecrement : Obligations.WordIncrementAndDecrement := by
  refine ⟨?incPair, ?incXr, ?decPair, ?decXr⟩
  case incPair => exact fun rr _ => ⟨encoded_incPair rr, rfl⟩
  case incXr => exact fun _ _ => ⟨encoded_of_lead rfl rfl, rfl⟩
  case decPair => exact fun rr _ => ⟨encoded_decPair rr, rfl⟩
  case decXr => exact fun _ _ => ⟨encoded_of_lead rfl rfl, rfl⟩

end Sys2Proof.Machine
end

section
/-! PROOFS. Shifts and masks as moved bits, for every width: each leaves bits beside zeros, and an OR of two such
parts puts the bits side by side. -/

namespace Sys2Proof.Machine

/-- A shift to the left moves the low part up and leaves zeros below it. -/
theorem shiftLeft_eq_append (m n : Nat) (v : BitVec (m + n)) : v <<< n = v.extractLsb' 0 m ++ 0#n := by
  ext i hi
  rw [BitVec.getElem_shiftLeft, BitVec.getElem_append]
  by_cases h : i < n
  · simp [h]
  · have hm : i - n < m := by omega
    simp [h, hm, ← BitVec.getLsbD_eq_getElem]

/-- A shift to the right moves the high part down and leaves zeros above it. -/
theorem ushiftRight_eq_append (m n : Nat) (v : BitVec (m + n)) : v >>> m = 0#m ++ v.extractLsb' m n := by
  ext i hi
  rw [BitVec.getElem_ushiftRight, BitVec.getElem_append]
  by_cases h : i < n
  · simp [h]
  · simpa [h] using BitVec.getLsbD_of_ge v (m + i) (by omega)

/-- A mask acts on each part by its own part. -/
theorem and_append_eq {m n : Nat} (v : BitVec (m + n)) (hi : BitVec m) (lo : BitVec n) :
    v &&& (hi ++ lo) = (v.extractLsb' n m &&& hi) ++ (v.extractLsb' 0 n &&& lo) := by
  rw [← BitVec.and_append, BitVec.extractLsb'_append_extractLsb']

/-- A mask of the low places keeps the low part. -/
theorem and_eq_zero_append (m n : Nat) (v : BitVec (m + n)) :
    v &&& (0#m ++ BitVec.allOnes n) = 0#m ++ v.extractLsb' 0 n := by
  rw [and_append_eq, BitVec.and_zero, BitVec.and_allOnes]

/-- A mask of the high places keeps the high part. -/
theorem and_eq_append_zero (m n : Nat) (v : BitVec (m + n)) :
    v &&& (BitVec.allOnes m ++ 0#n) = v.extractLsb' n m ++ 0#n := by
  rw [and_append_eq, BitVec.and_zero, BitVec.and_allOnes]

/-- A high part beside zeros, ORed with zeros beside a low part. -/
theorem or_eq_append {m n : Nat} {a b : BitVec (m + n)} {hi : BitVec m} {lo : BitVec n} (ha : a = hi ++ 0#n)
    (hb : b = 0#m ++ lo) : a ||| b = hi ++ lo := by
  rw [ha, hb, BitVec.or_append, BitVec.or_zero, BitVec.zero_or]

/-- `or_eq_append` with the low part first. -/
theorem or_eq_append_swap {m n : Nat} {a b : BitVec (m + n)} {hi : BitVec m} {lo : BitVec n} (ha : a = 0#m ++ lo)
    (hb : b = hi ++ 0#n) : a ||| b = hi ++ lo := by
  rw [BitVec.or_comm, or_eq_append hb ha]

/-- One bit of a vector, as a `Bool` and as a part of width 1. -/
theorem ofBool_getLsbD {w : Nat} (v : BitVec w) (k : Nat) : BitVec.ofBool (v.getLsbD k) = v.extractLsb' k 1 := by
  ext i hi
  obtain rfl : i = 0 := by omega
  simp

end Sys2Proof.Machine
end

section
/-! PROOFS. What the rotates and shifts make of a byte, as moved bits (46_rotate_shift R310 to R324). -/

namespace Sys2Proof.Machine

/-- A byte moved one place to the left with a bit moved in. -/
theorem shiftLeft_one_or (v : Byte) (b : Bool) :
    (v <<< 1) ||| (BitVec.ofBool b).zeroExtend 8 = v.extractLsb' 0 7 ++ BitVec.ofBool b :=
  or_eq_append (shiftLeft_eq_append 7 1 v) (by cases b <;> rfl)

/-- A byte moved one place to the right with a bit moved in. -/
theorem ushiftRight_one_or (v : Byte) (b : Bool) :
    (v >>> 1) ||| ((BitVec.ofBool b).zeroExtend 8 <<< 7) = BitVec.ofBool b ++ v.extractLsb' 1 7 :=
  or_eq_append_swap (ushiftRight_eq_append 1 7 v) (by cases b <;> rfl : _ = BitVec.ofBool b ++ 0#7)

/-- The result of a rotate or shift: its shift, with the bit that its row moves in (R315 to R322). -/
theorem rot8_fst (k : Rot) (v : Byte) (c : Bool) : (rot8 k v c).1 = rotated k v c := by
  cases k with
  | rlc =>
    rw [rotated, ← ofBool_getLsbD]
    exact shiftLeft_one_or ..
  | rrc =>
    rw [rotated, ← ofBool_getLsbD]
    exact ushiftRight_one_or ..
  | rl => exact shiftLeft_one_or ..
  | rr => exact ushiftRight_one_or ..
  | sla => exact shiftLeft_eq_append 7 1 v
  | sra => exact or_eq_append_swap (ushiftRight_eq_append 1 7 v) (and_eq_append_zero 1 7 v)
  | sll => exact shiftLeft_one_or v true
  | srl => exact ushiftRight_eq_append 1 7 v

/-- The bit that a rotate or shift moves out (R315 to R322). -/
theorem rot8_snd (k : Rot) (v : Byte) (c : Bool) : (rot8 k v c).2 = shiftedOut k v := by cases k <;> rfl

/-- RLC is the rotation to the left (R310). -/
theorem rotateLeft_one (v : Byte) (c : Bool) : v.rotateLeft 1 = rotated .rlc v c := by
  rw [BitVec.rotateLeft_def]
  exact or_eq_append (shiftLeft_eq_append 7 1 v) (ushiftRight_eq_append 7 1 v)

/-- RRC is the rotation to the right (R311). -/
theorem rotateRight_one (v : Byte) (c : Bool) : v.rotateRight 1 = rotated .rrc v c := by
  rw [BitVec.rotateRight_def]
  exact or_eq_append_swap (ushiftRight_eq_append 1 7 v) (shiftLeft_eq_append 1 7 v)

end Sys2Proof.Machine
end

section
/-! PROOFS. The rotates of A, RLD and RRD (46_rotate_shift R310 to R313, R323, R324). -/

namespace Sys2Proof.Machine

/-- A rotate of A writes A and F, as moved bits. -/
theorem rotateA_eq (s : State) (k : Rot) : s.rotateA k = { s with
    a := rotated k s.a (s.f.getLsbD 0)
    f := rotAFlags (rotated k s.a (s.f.getLsbD 0)) (shiftedOut k s.a) s.f } := by
  rw [← rot8_fst, ← rot8_snd _ _ (s.f.getLsbD 0)]
  rfl

/-- An instruction that is a rotate of A and its cost changes A, F and the T-states alone; S, Z and PV are those
before. -/
theorem rotates_of_exec_eq_rotateA {i : Instr} {s : State} {k : Rot} {res : Byte}
    (h : exec i s = .next ((s.rotateA k).took 4)) (hres : res = rotated k s.a (s.f.getLsbD 0)) :
    ∃ f, exec i s = .next { s with a := res, f := f, tstates := some 4 } ∧
      FlagsAre f (s.f.getLsbD 7) (s.f.getLsbD 6) (res.getLsbD 5) false (res.getLsbD 3) (s.f.getLsbD 2) false
        (shiftedOut k s.a) := by
  rw [rotateA_eq, ← hres] at h
  exact ⟨_, h, flagsAre_mkFlags ..⟩

/-- A digit rotate reads and writes the byte at HL and writes A and F. -/
theorem digitRotate_eq (s : State) (byte a : Byte) : s.digitRotate byte a = { s with
    a := a, f := flagsSZXYP a false false (s.f.getLsbD 0), mem := memSet s.mem s.hl.toNat byte
    bus := s.bus ++ [mr s.hl (s.byteAt s.hl), mw s.hl byte] } :=
  congrArg (fun bus => { s with
    a := a, f := flagsSZXYP a false false (s.f.getLsbD 0), mem := memSet s.mem s.hl.toNat byte, bus := bus })
    (List.append_assoc ..)

/-- An instruction that is a digit rotate and its cost changes A, F, the byte at HL, the transactions and the
T-states alone. -/
theorem rotatesDigits_of_exec_eq_digitRotate {i : Instr} {s : State} {byte newA stored a : Byte}
    (h : exec i s = .next ((s.digitRotate byte newA).took 18)) (hbyte : byte = stored) (ha : newA = a) :
    ∃ t, exec i s = .next t ∧
      t = { s with
        a := a, f := t.f, mem := t.mem, bus := s.bus ++ [mr s.hl (s.byteAt s.hl), mw s.hl stored]
        tstates := some 18 } ∧
      FlagsAre t.f (a.getLsbD 7) (a == 0) (a.getLsbD 5) false (a.getLsbD 3) (evenParity a) false
        (s.f.getLsbD 0) ∧
      Wrote s t [(s.hl, stored)] := by
  subst hbyte ha
  rw [digitRotate_eq] at h
  exact ⟨_, h, rfl, flagsAre_flagsSZXYP .., wrote_one rfl⟩

/-- Settles O51, instruction by instruction: the encoding, then the rotate of A, or the two bytes of the digit
rotate, each nibble from its shift or mask. -/
theorem accumulatorRotates : Obligations.AccumulatorRotates := by
  refine fun s => ⟨?rlca, ?rrca, ?rla, ?rra, ?rld, ?rrd⟩
  case rlca => exact ⟨⟨rfl, rfl⟩, rotates_of_exec_eq_rotateA (k := .rlc) rfl (rotateLeft_one ..)⟩
  case rrca => exact ⟨⟨rfl, rfl⟩, rotates_of_exec_eq_rotateA (k := .rrc) rfl (rotateRight_one ..)⟩
  case rla => exact ⟨⟨rfl, rfl⟩, rotates_of_exec_eq_rotateA (k := .rl) rfl rfl⟩
  case rra => exact ⟨⟨rfl, rfl⟩, rotates_of_exec_eq_rotateA (k := .rr) rfl rfl⟩
  case rld =>
    exact ⟨⟨rfl, rfl⟩, rotatesDigits_of_exec_eq_digitRotate rfl
      (or_eq_append (shiftLeft_eq_append 4 4 _) (and_eq_zero_append 4 4 _))
      (or_eq_append (and_eq_append_zero 4 4 _) (ushiftRight_eq_append 4 4 _))⟩
  case rrd =>
    have hlow : (s.a &&& 0x0F) <<< 4 = s.a.extractLsb' 0 4 ++ 0#4 := by
      rw [show s.a &&& 0x0F = 0#4 ++ s.a.extractLsb' 0 4 from and_eq_zero_append 4 4 _]
      exact (shiftLeft_eq_append 4 4 _).trans (by rw [BitVec.extractLsb'_append_eq_right])
    exact ⟨⟨rfl, rfl⟩, rotatesDigits_of_exec_eq_digitRotate rfl
      (or_eq_append hlow (ushiftRight_eq_append 4 4 _))
      (or_eq_append (and_eq_append_zero 4 4 _) (and_eq_zero_append 4 4 _))⟩

end Sys2Proof.Machine
end

section
/-! PROOFS. The CB rotates and shifts in every operand form (46_rotate_shift R314 to R322). -/

namespace Sys2Proof.Machine

/-- The result and F of a CB rotate or shift, as moved bits (R314). -/
theorem rotOp_eq (k : Rot) (v f : Byte) : rotOp k v f =
    (rotated k v (f.getLsbD 0), rotFlags (rotated k v (f.getLsbD 0)) (shiftedOut k v)) := by
  rw [← rot8_fst, ← rot8_snd _ _ (f.getLsbD 0)]
  rfl

/-- The instruction of a rotate and an operand is its form's read-modify-write with that rotate. -/
theorem exec_rotInstr {k : Rot} {m : Operand} {i : Instr} (h : rotInstr k m = some i) (s : State) :
    exec i s = .next ((m.modify s (rotOp k)).took m.cbCost) := by
  cases m with
  | half => cases k <;> cases h
  | reg | atHl | atXr | copy => cases k <;> cases h <;> rfl

theorem encoded_rotInstr {k : Rot} {m : Operand} {i : Instr} (h : rotInstr k m = some i) :
    Encoded i (m.cbBytes 0b00 (rotCode k)) 2 := by
  cases m with
  | reg r =>
    have hi : Encoded i [0xCB, (0b00#2 ++ rotCode k ++ 0#3) ||| low3 r.code] 2 := by
      cases k <;> cases h <;> exact ⟨rfl, rfl⟩
    rwa [or_low3] at hi
  | atHl => cases k <;> cases h <;> exact ⟨rfl, rfl⟩
  | atXr x d => cases k <;> cases h <;> exact encoded_of_lead rfl rfl
  | half x p => cases k <;> cases h
  | copy x d r =>
    have hi : Encoded i [xrCode x, 0xCB, d, (0b00#2 ++ rotCode k ++ 0#3) ||| low3 r.code] 2 := by
      cases k <;> cases h <;> exact encoded_of_lead rfl rfl
    rwa [or_low3] at hi

/-- Settles O52: a CB rotate or shift is the read-modify-write of its operand, with the result and the flags of
`rotOp`. -/
theorem rotatesAndShifts : Obligations.RotatesAndShifts := by
  intro k m i s hi
  obtain ⟨t, ht, hm, hf⟩ := modifies_of_exec_eq_modify (exec_rotInstr hi s)
  rw [rotOp_eq] at hm hf
  exact ⟨encoded_rotInstr hi, t, ht, hm, hf ▸ flagsAre_flagsSZXYP ..⟩

end Sys2Proof.Machine
end

section
/-! PROOFS. SET and RES in every operand form (47_bit R343 to R348). -/

namespace Sys2Proof.Machine

/-- The mask of bit b has that bit alone. -/
theorem getLsbD_bitMask (b : BitVec 3) (k : Nat) : (bitMask b).getLsbD k = (k == b.toNat) := by
  have hb : b.toNat < 8 := b.isLt
  rw [show bitMask b = BitVec.twoPow 8 b.toNat from rfl, BitVec.getLsbD_twoPow, decide_eq_true hb, Bool.true_and]
  exact decide_eq_decide.mpr eq_comm

/-- SET leaves bit b one and every other bit as it was (R343). -/
theorem getLsbD_setOp (b : BitVec 3) (v f : Byte) (k : Nat) :
    (setOp b v f).1.getLsbD k = (k == b.toNat || v.getLsbD k) := by
  rw [setOp, BitVec.getLsbD_or, getLsbD_bitMask, Bool.or_comm]

/-- RES leaves bit b zero and every other bit as it was (R346). -/
theorem getLsbD_resOp (b : BitVec 3) (v f : Byte) {k : Nat} (hk : k < 8) :
    (resOp b v f).1.getLsbD k = (k != b.toNat && v.getLsbD k) := by
  rw [resOp, BitVec.getLsbD_and, BitVec.getLsbD_not, getLsbD_bitMask, decide_eq_true hk, Bool.true_and,
    Bool.and_comm, bne]

/-- SET b,m is its form's read-modify-write with `setOp`, whatever the bit was (R343 to R345). -/
theorem exec_setInstr {b : BitVec 3} {m : Operand} {i : Instr} (h : setInstr b m = some i) (s : State) :
    exec i s = .next ((m.modify s (setOp b)).took m.cbCost) := by
  cases m <;> cases h <;> rfl

/-- RES b,m is its form's read-modify-write with `resOp`, whatever the bit was (R346 to R348). -/
theorem exec_resInstr {b : BitVec 3} {m : Operand} {i : Instr} (h : resInstr b m = some i) (s : State) :
    exec i s = .next ((m.modify s (resOp b)).took m.cbCost) := by
  cases m <;> cases h <;> rfl

/-- The bytes of an entry of the CB and XYCB tables as `encode` writes them: the fields ORed into the opcode
(30_encoding R107, R115). -/
def Operand.cbEncoding (m : Operand) (x : BitVec 2) (y : BitVec 3) : List Byte :=
  match m with
  | .reg r => [0xCB, (x ++ 0#3 ++ 0#3) ||| field3 y ||| low3 r.code]
  | .atHl => [0xCB, (x ++ 0#3 ++ 0b110#3) ||| field3 y]
  | .atXr xr d => [xr.lead, 0xCB, d, (x ++ 0#3 ++ 0b110#3) ||| field3 y]
  | .half _ _ => []
  | .copy xr d r => [xr.lead, 0xCB, d, (x ++ 0#3 ++ 0#3) ||| field3 y ||| low3 r.code]

/-- An opcode with fields y and z ORed into its clear bits 5:0 (30_encoding R101). -/
theorem or_field3_or_low3 (x : BitVec 2) (y z : BitVec 3) :
    (x ++ 0#3 ++ 0#3) ||| field3 y ||| low3 z = x ++ y ++ z := by
  rw [or_field3, or_low3]

/-- The ORed fields stand side by side. -/
theorem Operand.cbEncoding_eq (m : Operand) (x : BitVec 2) (y : BitVec 3) : m.cbEncoding x y = m.cbBytes x y := by
  cases m with
  | half => rfl
  | reg | copy => simp only [cbEncoding, cbBytes, or_field3_or_low3, lead_eq_xrCode]
  | atHl | atXr => simp only [cbEncoding, cbBytes, or_field3, lead_eq_xrCode]

theorem encoded_setInstr {b : BitVec 3} {m : Operand} {i : Instr} (h : setInstr b m = some i) :
    Encoded i (m.cbBytes 0b11 b) 2 := by
  rw [← m.cbEncoding_eq]
  cases m <;> cases h <;> exact ⟨rfl, rfl⟩

theorem encoded_resInstr {b : BitVec 3} {m : Operand} {i : Instr} (h : resInstr b m = some i) :
    Encoded i (m.cbBytes 0b10 b) 2 := by
  rw [← m.cbEncoding_eq]
  cases m <;> cases h <;> exact ⟨rfl, rfl⟩

/-- Settles O54: SET and RES are the read-modify-write of their operand, with the bits of `setOp` and `resOp` and
F as it was. -/
theorem setAndResetBit : Obligations.SetAndResetBit := by
  refine fun b m i s => ⟨fun hi => ?set, fun hi => ?res⟩
  case set =>
    exact ⟨encoded_setInstr hi, _, _, exec_setInstr hi s, modified_modify m s (setOp b) _,
      fun k _ => getLsbD_setOp b _ s.f k⟩
  case res =>
    exact ⟨encoded_resInstr hi, _, _, exec_resInstr hi s, modified_modify m s (resOp b) _,
      fun _ hk => getLsbD_resOp b _ s.f hk⟩

end Sys2Proof.Machine
end

section
/-! PROOFS. Who writes the shadow registers and the interrupt state (10_state R31, R47, R48, R53), and that every
instruction completes (60_exceptions R444, R447). -/

namespace Sys2Proof.Machine

/-- Only EX AF,AF' writes A' and F' (10_state R31). -/
theorem controlAfter_shadow_af {i : Instr} (s : State) (h : i ≠ .exAfAf) :
    (controlAfter i s).shadow.take 2 = [s.a', s.f'] := by
  cases i with
  | exAfAf => exact absurd rfl h
  | _ => rfl

/-- Only EXX writes the other six (10_state R31). -/
theorem controlAfter_shadow_others {i : Instr} (s : State) (h : i ≠ .exx) :
    (controlAfter i s).shadow.drop 2 = [s.b', s.c', s.d', s.e', s.h', s.l'] := by
  cases i with
  | exx => exact absurd rfl h
  | _ => rfl

/-- Settles O27: the shadow registers after an instruction are those that the row of its body leaves. -/
theorem shadowRegistersOnlyExchanged : Obligations.ShadowRegistersOnlyExchanged := by
  intro i s t hw ht
  have hshadow : t.control.shadow = (controlAfter (body i) s).shadow := by rw [exec_control hw ht]
  refine ⟨fun h => ?_, fun h => ?_⟩
  · have haf : [t.a', t.f'] = [s.a', s.f'] :=
      (congrArg (List.take 2) hshadow).trans (controlAfter_shadow_af s h)
    simpa using haf
  · have hothers : [t.b', t.c', t.d', t.e', t.h', t.l'] = [s.b', s.c', s.d', s.e', s.h', s.l'] :=
      (congrArg (List.drop 2) hshadow).trans (controlAfter_shadow_others s h)
    simpa using hothers

/-- Only DI and EI write IFF2 (10_state R47). -/
theorem controlAfter_iff2 {i : Instr} (s : State) (hdi : i ≠ .di) (hei : i ≠ .ei) :
    (controlAfter i s).iff2 = s.iff2 := by
  cases i with
  | di => exact absurd rfl hdi
  | ei => exact absurd rfl hei
  | _ => rfl

/-- Only DI, EI, RETI and RETN write IFF1 (10_state R47). -/
theorem controlAfter_iff1 {i : Instr} (s : State) (hdi : i ≠ .di) (hei : i ≠ .ei) (hreti : i ≠ .reti)
    (hretn : ∀ y, i ≠ .retn y) : (controlAfter i s).iff1 = s.iff1 := by
  cases i with
  | di => exact absurd rfl hdi
  | ei => exact absurd rfl hei
  | reti => exact absurd rfl hreti
  | retn y => exact absurd rfl (hretn y)
  | _ => rfl

/-- Only the IM instructions write IM (10_state R48). -/
theorem controlAfter_im {i : Instr} (s : State) (h0 : ∀ y, i ≠ .im0 y) (h1 : ∀ y, i ≠ .im1 y)
    (h2 : ∀ y, i ≠ .im2 y) : (controlAfter i s).im = s.im := by
  cases i with
  | im0 y => exact absurd rfl (h0 y)
  | im1 y => exact absurd rfl (h1 y)
  | im2 y => exact absurd rfl (h2 y)
  | _ => rfl

/-- No instruction writes the NMI request or the INT level (10_state R53). -/
theorem controlAfter_requests (i : Instr) (s : State) :
    (controlAfter i s).nmiPending = s.nmiPending ∧ (controlAfter i s).intLine = s.intLine := by
  cases i <;> exact ⟨rfl, rfl⟩

/-- Settles O29: the interrupt state after an instruction is what the row of its body leaves. -/
theorem interruptStateWriters : Obligations.InterruptStateWriters := by
  intro i s t hw ht
  have hc := exec_control hw ht
  have hiff1 : t.iff1 = (controlAfter (body i) s).iff1 := congrArg Control.iff1 hc
  have hiff2 : t.iff2 = (controlAfter (body i) s).iff2 := congrArg Control.iff2 hc
  have him : t.im = (controlAfter (body i) s).im := congrArg Control.im hc
  have hnmi : t.nmiPending = (controlAfter (body i) s).nmiPending := congrArg Control.nmiPending hc
  have hint : t.intLine = (controlAfter (body i) s).intLine := congrArg Control.intLine hc
  obtain ⟨hnmi', hint'⟩ := controlAfter_requests (body i) s
  refine ⟨fun hdi hei => hiff2.trans (controlAfter_iff2 s hdi hei),
    fun hdi hei hreti hretn => hiff1.trans (controlAfter_iff1 s hdi hei hreti hretn), fun h => hiff1.trans ?_,
    fun h0 h1 h2 => him.trans (controlAfter_im s h0 h1 h2), hnmi.trans hnmi', hint.trans hint'⟩
  -- RETI and RETN
  obtain h | ⟨y, h⟩ := h <;> rw [h] <;> rfl

/-- Settles O26: a well-formed instruction does what its row does, and every row answers a next state. -/
theorem everyInstructionCompletes : Obligations.EveryInstructionCompletes := by
  intro i s hw
  obtain ⟨t, ht, -⟩ := exec_leaves hw
  exact ⟨t, ht⟩

end Sys2Proof.Machine
end

section
/-! PROOFS. What the tables of the decoder hand out (30_encoding R105 to R116): an entry is an instruction with no
operand byte, with one, with two or with a word, and its bytes are the opcode read and the operand bytes. -/

namespace Sys2Proof.Machine

/-- A row that is the entry of its own bytes in its table: not one that stands for a member of UNDOC_UNIMPL, and
no index prefix before another, which the loop of 30_encoding R105 reads (log entry 15). -/
def ownEntry : Instr → Bool
  | .prefixDD _ => false
  | .prefixFD _ => false
  | .prefixXrXr _ _ => false
  | _ => true

/-- The instruction has these bytes, a first byte of this kind and admissible fields, and is its own entry. -/
def RowOf (k : Lead) (i : Instr) (bytes : List Byte) : Prop :=
  encode i = bytes ∧ i.lead = k ∧ i.fieldsOk = true ∧ ownEntry i = true

theorem RowOf.encode_eq {k : Lead} {i : Instr} {bytes : List Byte} (h : RowOf k i bytes) : encode i = bytes := h.1

theorem RowOf.lead_eq {k : Lead} {i : Instr} {bytes : List Byte} (h : RowOf k i bytes) : i.lead = k := h.2.1

/-- An entry of the table that the bytes `pre` lead to, at the opcode `op` with the bytes `tail` after it: the
instruction by its operand bytes. -/
inductive Selects (k : Lead) (pre : List Byte) (op : Byte) (tail : List Byte) : Entry → Prop
  | bare {i : Instr} (h : RowOf k i (pre ++ [op])) : Selects k pre op tail (some (i, tail))
  | byte {f : Byte → Instr} (h : ∀ n, RowOf k (f n) (pre ++ [op, n])) : Selects k pre op tail (withByte f tail)
  | word {f : Word → Instr} (h : ∀ nn, RowOf k (f nn) (pre ++ [op, loByte nn, hiByte nn])) :
      Selects k pre op tail (withWord f tail)
  | two {f : Byte → Byte → Instr} (h : ∀ d n, RowOf k (f d n) (pre ++ [op, d, n])) :
      Selects k pre op tail (withTwo f tail)

/-- The instruction that an entry hands out has the bytes that were read, and the others are left over. -/
theorem rowOf_of_selects {k : Lead} {pre tail rest : List Byte} {op : Byte} {e : Entry} {i : Instr}
    (h : Selects k pre op tail e) (he : e = some (i, rest)) :
    ∃ operands, RowOf k i (pre ++ op :: operands) ∧ tail = operands ++ rest := by
  cases h with
  | bare h =>
    cases he
    exact ⟨[], h, rfl⟩
  | byte h =>
    match tail, he with
    | n :: _, rfl => exact ⟨[n], h n, rfl⟩
  | word h =>
    match tail, he with
    | lo :: hi :: _, rfl => exact ⟨[lo, hi], by simpa [loByte_mkWord, hiByte_mkWord] using h (mkWord hi lo), rfl⟩
  | two h =>
    match tail, he with
    | d :: n :: _, rfl => exact ⟨[d, n], h d n, rfl⟩

/-- A row from its encoding, whose opcode byte is the one read. -/
theorem rowOf_of_opcode {k : Lead} {i : Instr} {pre operands : List Byte} {op' op : Byte}
    (he : encode i = pre ++ op' :: operands) (hop : op' = op) (hk : i.lead = k) (hf : i.fieldsOk = true)
    (ho : ownEntry i = true) : RowOf k i (pre ++ op :: operands) :=
  ⟨hop ▸ he, hk, hf, ho⟩

/-- An opcode byte from its fields (30_encoding R101). -/
theorem op_eq_of_fields {op : Byte} {x y z : Nat} (hx : (opX op).toNat = x) (hy : (opY op).toNat = y)
    (hz : (opZ op).toNat = z) : BitVec.ofNat 8 (64 * x + 8 * y + z) = op := by
  subst hx hy hz
  revert op
  decide +kernel

/-- Opcodes 0x00 to 0x3F: the fields of an arm give its opcode byte (30_encoding R106). -/
theorem decodeBase0_selects {op : Byte} (hx : (opX op).toNat = 0) (tail : List Byte) :
    Selects .plain [] op tail (decodeBase0 op tail) := by
  rw [decodeBase0]
  repeat' split
  case h_19 | h_20 =>
    -- INC r and DEC r, with r = 6 for (HL)
    exact .bare (by revert op; unfold RowOf; decide +kernel)
  case h_21 =>
    -- LD r,n, with r = 6 for (HL)
    cases hr : reg8Of (opY op) with
    | none => exact .byte fun _ => rowOf_of_opcode rfl (by revert op; decide +kernel) rfl rfl rfl
    | some r => exact .byte fun _ => rowOf_of_opcode rfl (by revert op; cases r <;> decide +kernel) rfl rfl rfl
  case h_29 =>
    -- CCF, the last arm
    have hy : (opY op).toNat = 7 := by have := (opY op).isLt; grind
    have hz : (opZ op).toNat = 7 := by have := (opZ op).isLt; grind
    exact .bare (rowOf_of_opcode rfl (op_eq_of_fields hx hy hz) rfl rfl rfl)
  all_goals
    constructor
    intros
    exact rowOf_of_opcode rfl (by revert op; decide +kernel) rfl rfl rfl

theorem decodeLoad_rowOf : ∀ op, (opX op).toNat = 1 → RowOf .plain (decodeLoad op) [op] := by
  unfold RowOf
  decide +kernel

theorem decodeAlu_rowOf : ∀ op, (opX op).toNat = 2 →
    RowOf .plain ((reg8Of (opZ op)).elim (aluAtHl (opY op)) (aluReg (opY op))) [op] := by
  unfold RowOf
  decide +kernel

/-- Opcodes 0xC0 to 0xFF but for the prefix bytes (30_encoding R106). -/
theorem decodeBase3_selects {op : Byte} (hx : (opX op).toNat = 3) (hop : Laws.Bytes.kindOf op = .plain)
    (tail : List Byte) : Selects .plain [] op tail (decodeBase3 op tail) := by
  rw [decodeBase3]
  split
  case h_18 =>
    -- the accumulator operations on a byte
    refine .byte fun n => ?_
    unfold aluN
    split <;> exact rowOf_of_opcode rfl (by revert op; decide +kernel) rfl rfl rfl
  case h_19 =>
    -- RST, the last arm
    have hz : (opZ op).toNat = 7 := by have := (opZ op).isLt; grind
    have hrst : ∀ op, (opX op).toNat = 3 → (opZ op).toNat = 7 → 0xC7 ||| field3 (opY op) = op := by decide +kernel
    exact .bare (rowOf_of_opcode rfl (hrst op hx hz) rfl rfl rfl)
  all_goals
    constructor
    intros
    exact rowOf_of_opcode rfl (by revert op; decide +kernel) rfl rfl rfl

/-- The base table at a byte that is no prefix (30_encoding R106). -/
theorem decodeBase_selects {op : Byte} (hop : Laws.Bytes.kindOf op = .plain) (tail : List Byte) :
    Selects .plain [] op tail (decodeBase op tail) := by
  have hlt := (opX op).isLt
  unfold decodeBase
  split
  case h_1 hx => exact decodeBase0_selects hx tail
  case h_2 hx => exact .bare (decodeLoad_rowOf op hx)
  case h_3 hx => exact .bare (decodeAlu_rowOf op hx)
  case h_4 => exact decodeBase3_selects (by grind) hop tail

/-- The CB table (30_encoding R107). -/
theorem decodeCB_rowOf : ∀ op, RowOf .cb (decodeCB op) [0xCB, op] := by
  unfold RowOf
  decide +kernel

/-- A row of the XYCB table from its encoding, whose last byte is the opcode read (30_encoding R115). -/
theorem rowOf_xyCb {i : Instr} {x : XR} {d op' op : Byte} (he : encode i = [x.lead, 0xCB, d, op']) (hop : op' = op)
    (hk : i.lead = .index) (hf : i.fieldsOk = true) (ho : ownEntry i = true) :
    RowOf .index i [x.lead, 0xCB, d, op] :=
  ⟨hop ▸ he, hk, hf, ho⟩

/-- The XYCB table (30_encoding R115). -/
theorem decodeXyCb_rowOf (x : XR) (d op : Byte) : RowOf .index (decodeXyCb x d op) [x.lead, 0xCB, d, op] := by
  unfold decodeXyCb
  dsimp only
  split
  case h_1 r _ hr =>
    unfold rotAtXrReg
    split <;> exact rowOf_xyCb rfl (by revert op; cases r <;> decide +kernel) rfl rfl rfl
  case h_2 =>
    unfold rotAtXr
    split <;> exact rowOf_xyCb rfl (by revert op; decide +kernel) rfl rfl rfl
  case h_3 => exact rowOf_xyCb rfl (by revert op; decide +kernel) rfl rfl rfl
  case h_4 r _ hr => exact rowOf_xyCb rfl (by revert op; cases r <;> decide +kernel) rfl rfl rfl
  case h_5 => exact rowOf_xyCb rfl (by revert op; decide +kernel) rfl rfl rfl
  case h_6 r hr _ _ _ => exact rowOf_xyCb rfl (by revert op; cases r <;> decide +kernel) rfl rfl rfl
  case h_7 => exact rowOf_xyCb rfl (by revert op; decide +kernel) rfl rfl rfl

theorem decodeED2_rowOf : ∀ op, (opX op).toNat = 2 → RowOf .ed (decodeED2 op) [0xED, op] := by
  unfold RowOf
  decide +kernel

/-- ED opcodes 0x40 to 0x7F with z = 7: the moves of I and R, RRD and RLD, and two unpopulated entries. -/
theorem decodeED1_unpopulated_rowOf : ∀ op, (opX op).toNat = 1 → (opZ op).toNat = 7 → 6 ≤ (opY op).toNat →
    RowOf .ed (.prefixED op) [0xED, op] := by
  unfold RowOf
  decide +kernel

/-- ED opcodes 0x40 to 0x7F (30_encoding R108). -/
theorem decodeED1_selects {op : Byte} (hx : (opX op).toNat = 1) (tail : List Byte) :
    Selects .ed [0xED] op tail (decodeED1 op tail) := by
  rw [decodeED1]
  split
  case h_4 =>
    -- LD dd,(nn) and LD (nn),dd
    cases hq : opQ op <;> exact .word fun _ => rowOf_of_opcode rfl (by revert op; decide +kernel) rfl rfl rfl
  case h_7 =>
    -- the three interrupt modes
    split <;> exact .bare (by revert op; unfold RowOf; decide +kernel)
  case h_8 =>
    have hz : (opZ op).toNat = 7 := by have := (opZ op).isLt; grind
    split
    case h_7 => exact .bare (decodeED1_unpopulated_rowOf op hx hz (by have := (opY op).isLt; grind))
    all_goals exact .bare (by revert op; unfold RowOf; decide +kernel)
  all_goals exact .bare (by revert op; unfold RowOf; decide +kernel)

/-- The ED table (30_encoding R108). -/
theorem decodeED_selects (op : Byte) (tail : List Byte) : Selects .ed [0xED] op tail (decodeED op tail) := by
  unfold decodeED
  split
  case h_1 hx => exact decodeED1_selects hx tail
  case h_2 hx => exact .bare (decodeED2_rowOf op hx)
  case h_3 => exact .bare (by revert op; unfold RowOf; decide +kernel)

/-- An entry with XRH or XRL where the base table has H or L (30_encoding R111). -/
theorem selects_of_map_halfOf {x : XR} {op : Byte} {tail : List Byte} {r : Reg8} {f : Half → Entry} {e : Entry}
    (h : (halfOf r).map f = some e) (hh : r = .h → Selects .index [x.lead] op tail (f .hi))
    (hl : r = .l → Selects .index [x.lead] op tail (f .lo)) : Selects .index [x.lead] op tail e := by
  cases r <;> cases h
  case h => exact hh rfl
  case l => exact hl rfl

/-- The rows of the accumulator operations on XRH and XRL. -/
theorem aluXrHalf_rowOf (x : XR) {p : Half} {op : Byte} (hx : (opX op).toNat = 2)
    (hz : reg8Of (opZ op) = some (if p = .hi then .h else .l)) :
    RowOf .index (aluXrHalf (opY op) x p) [x.lead, op] := by
  unfold aluXrHalf
  split <;> exact rowOf_of_opcode (pre := [x.lead]) rfl (by revert op; cases p <;> decide +kernel) rfl rfl rfl

/-- The halves of an index register stand where H and L do (30_encoding R111). -/
theorem isSome_halfOf (r : Reg8) : (halfOf r).isSome = r.isHl := by cases r <;> rfl

/-- LD between registers with XRH and XRL for H and L. -/
theorem ldRegRegXr_rowOf (x : XR) {r r' : Reg8} {op : Byte} (hx : (opX op).toNat = 1)
    (hy : reg8Of (opY op) = some r) (hz : reg8Of (opZ op) = some r')
    (hh : (r.isHl || r'.isHl) = true) : RowOf .index (.ldRegRegXr x r r') [x.lead, op] := by
  have hfields : ∀ op, (opX op).toNat = 1 → 0x40 ||| field3 (opY op) ||| low3 (opZ op) = op := by decide +kernel
  have hop : 0x40 ||| r.high ||| r'.low = op := by
    rw [Reg8.high, Reg8.low, code_of_reg8Of hy, code_of_reg8Of hz, hfields op hx]
  exact rowOf_of_opcode (pre := [x.lead]) rfl hop rfl hh rfl

/-- An entry that 30_encoding R111 lists for an index prefix. -/
theorem decodeListed_selects (x : XR) (op : Byte) (tail : List Byte) {e : Entry}
    (h : decodeListed x op tail = some e) : Selects .index [x.lead] op tail e := by
  rw [decodeListed] at h
  split at h
  case h_1 =>
    -- ADD XR,pp and LD XR,nn
    split at h
    · cases h
      exact .bare (rowOf_of_opcode rfl (by revert op; decide +kernel) rfl rfl rfl)
    · split at h <;> cases h
      exact .word fun _ => rowOf_of_opcode rfl (by revert op; decide +kernel) rfl rfl rfl
  case h_2 =>
    -- LD (nn),XR and LD XR,(nn)
    split at h <;> cases h <;>
      exact .word fun _ => rowOf_of_opcode rfl (by revert op; decide +kernel) rfl rfl rfl
  case h_3 =>
    -- INC XR and DEC XR
    split at h <;> cases h <;> exact .bare (rowOf_of_opcode rfl (by revert op; decide +kernel) rfl rfl rfl)
  case h_4 | h_5 =>
    -- INC and DEC of (XR+d), XRH and XRL
    split at h
    · cases h
      exact .byte fun _ => rowOf_of_opcode rfl (by revert op; decide +kernel) rfl rfl rfl
    · refine selects_of_map_halfOf h ?_ ?_ <;> rintro rfl <;>
        exact .bare (rowOf_of_opcode rfl (by revert op; decide +kernel) rfl rfl rfl)
  case h_6 =>
    -- LD (XR+d),n, LD XRH,n and LD XRL,n
    split at h
    · cases h
      exact .two fun _ _ => rowOf_of_opcode rfl (by revert op; decide +kernel) rfl rfl rfl
    · refine selects_of_map_halfOf h ?_ ?_ <;> rintro rfl <;>
        exact .byte fun _ => rowOf_of_opcode rfl (by revert op; decide +kernel) rfl rfl rfl
  case h_7 hx =>
    -- the loads of a register
    split at h
    case h_1 r r' hy hz =>
      split at h <;> cases h
      rename_i hhalf
      exact .bare (ldRegRegXr_rowOf x hx hy hz (by rwa [isSome_halfOf, isSome_halfOf] at hhalf))
    case h_2 r _ _ =>
      cases h
      exact .byte fun _ => rowOf_of_opcode rfl (by revert op; cases r <;> decide +kernel) rfl rfl rfl
    case h_3 r _ _ =>
      cases h
      exact .byte fun _ => rowOf_of_opcode rfl (by revert op; cases r <;> decide +kernel) rfl rfl rfl
    case h_4 => cases h
  case h_8 hx =>
    -- the accumulator operations
    split at h
    · cases h
      refine .byte fun _ => ?_
      unfold aluAtXr
      split <;> exact rowOf_of_opcode rfl (by revert op; decide +kernel) rfl rfl rfl
    · refine selects_of_map_halfOf h ?_ ?_ <;> rintro rfl <;> exact .bare (aluXrHalf_rowOf x hx ‹_›)
  case h_9 =>
    -- the stack, JP (XR) and LD SP,XR
    split at h <;> cases h <;> exact .bare (rowOf_of_opcode rfl (by revert op; decide +kernel) rfl rfl rfl)
  case h_10 => cases h

end Sys2Proof.Machine
end

section
/-! PROOFS. Every instruction of the base table is found again at its own bytes, and an index prefix modifies
exactly the instructions with a substituted operand (30_encoding R106, R110 to R112). -/

namespace Sys2Proof.Machine

/-- A word operand written low byte first is read back (30_encoding R103). -/
theorem withWord_bytes (f : Word → Instr) (nn : Word) (rest : List Byte) :
    withWord f ([loByte nn, hiByte nn] ++ rest) = some (f nn, rest) := by
  rw [List.cons_append, List.cons_append, List.nil_append, withWord, mkWord_hiByte_loByte]

/-- The base table has the instruction at its own bytes, and the index table lists its opcode exactly where an
operand of it is substituted. -/
def PlainRow (i : Instr) : Prop :=
  ∃ op operands, encode i = op :: operands ∧ Laws.Bytes.kindOf op = .plain ∧
    (∀ rest, decodeBase op (operands ++ rest) = some (i, rest)) ∧
    ∀ x tail, (decodeListed x op tail).isSome = i.substituted

theorem plainRow_of_opcode {i : Instr} {op : Byte} {operands : List Byte} (he : encode i = op :: operands)
    (hk : Laws.Bytes.kindOf op = .plain) (hd : ∀ rest, decodeBase op (operands ++ rest) = some (i, rest))
    (hs : ∀ x tail, (decodeListed x op tail).isSome = i.substituted) : PlainRow i :=
  ⟨op, operands, he, hk, hd, hs⟩

/-- The instructions of the base table, by the names in their opcode and by their operand bytes. -/
theorem plainRow_of_lead {i : Instr} (h : i.lead = .plain) : PlainRow i := by
  cases i with
  -- a fixed opcode, with no operand byte or one
  | nop | exAfAf | rlca | rrca | rla | rra | daa | cpl | scf | ccf | djnz | jr | incAtHl | decAtHl | ldAtHlN | halt
  | addAtHl | adcAtHl | subAtHl | sbcAtHl | andAtHl | xorAtHl | orAtHl | cpAtHl
  | addN | adcN | subN | sbcN | andN | xorN | orN | cpN
  | ret | exx | exSpHl | jpHl | exDeHl | ldSpHl | di | ei | outNA | inAN =>
    exact plainRow_of_opcode rfl rfl (fun _ => rfl) fun _ _ => rfl
  -- a fixed opcode and a word
  | ldMemHl nn | ldHlMem nn | ldMemA nn | ldAMem nn | jp nn | call nn =>
    exact plainRow_of_opcode rfl rfl (withWord_bytes _ nn) fun _ _ => rfl
  -- a name in the opcode
  | ldPtrA r | ldAPtr r | incPair r | decPair r | addHlPair r | pushPair r | popPair r | retCond r | jrCond r
  | incReg r | decReg r | ldRegN r | ldRegAtHl r | ldAtHlReg r
  | addReg r | adcReg r | subReg r | sbcReg r | andReg r | xorReg r | orReg r | cpReg r =>
    cases r <;> exact plainRow_of_opcode rfl rfl (fun _ => rfl) fun _ _ => rfl
  | ldRegReg r r' => cases r <;> cases r' <;> exact plainRow_of_opcode rfl rfl (fun _ => rfl) fun _ _ => rfl
  | rst t =>
    obtain ⟨k⟩ := t
    fin_cases k <;> exact plainRow_of_opcode rfl rfl (fun _ => rfl) fun _ _ => rfl
  -- a name in the opcode and a word
  | ldPairNn r nn | jpCond r nn | callCond r nn =>
    cases r <;> exact plainRow_of_opcode rfl rfl (withWord_bytes _ nn) fun _ _ => rfl
  | _ => cases h

end Sys2Proof.Machine
end

section
/-! PROOFS. The decoder table by table (30_encoding R105): what each kind of first byte leads to, and what each
byte after an index prefix does. -/

namespace Sys2Proof.Machine

open Laws.Bytes (kindOf)

/-- What the decoder answers for a table entry. -/
def answer (e : Entry) : Except DecodeError (Instr × List Byte) :=
  match e with
  | some r => .ok r
  | none => .error .truncated

theorem answer_eq_ok {e : Entry} {r : Instr × List Byte} : answer e = .ok r ↔ e = some r := by
  cases e <;> simp [answer]

/-- A byte is a base opcode, 0xCB, 0xED or an index prefix. -/
theorem kind_cases (op : Byte) : kindOf op = .plain ∨ op = 0xCB ∨ op = 0xED ∨ ∃ x : XR, op = x.lead := by
  have h : ∀ op, kindOf op = .plain ∨ op = 0xCB ∨ op = 0xED ∨ op = XR.lead .ix ∨ op = XR.lead .iy := by
    decide +kernel
  obtain h | h | h | h | h := h op
  · exact .inl h
  · exact .inr (.inl h)
  · exact .inr (.inr (.inl h))
  · exact .inr (.inr (.inr ⟨_, h⟩))
  · exact .inr (.inr (.inr ⟨_, h⟩))

/-- A base opcode is none of the bytes that the loop of R105 looks at first. -/
theorem ne_of_plain {op : Byte} (h : kindOf op = .plain) :
    op ≠ 0xCB ∧ op ≠ 0xED ∧ xrOfLead op = none ∧ ([0xCB, 0xDD, 0xED, 0xFD] : List Byte).contains op = false := by
  revert op
  decide +kernel

@[simp] theorem xrOfLead_lead (x : XR) : xrOfLead x.lead = some x := by cases x <;> rfl

variable (u : List (XR × Byte)) (x : XR)

theorem decodeWith_plain {op : Byte} (h : kindOf op = .plain) (tail : List Byte) :
    decodeWith u (op :: tail) = answer (decodeBase op tail) := by
  obtain ⟨hcb, hed, hx, -⟩ := ne_of_plain h
  simp only [decodeWith, hx, if_neg hcb, if_neg hed]
  rfl

theorem decodeWith_cb (op : Byte) (tail : List Byte) :
    decodeWith u (0xCB :: op :: tail) = .ok (decodeCB op, tail) := rfl

theorem decodeWith_ed_eq (op : Byte) (tail : List Byte) :
    decodeWith u (0xED :: op :: tail) = answer (decodeED op tail) := rfl

theorem decodeWith_index (tail : List Byte) : decodeWith u (x.lead :: tail) = answer (decodeAfterXr u x tail) := by
  simp only [decodeWith, xrOfLead_lead]
  rfl

theorem decodeAfterXr_index (x' : XR) (tail : List Byte) : decodeAfterXr u x (x'.lead :: tail) =
    (decodeAfterXr u x' tail).map fun r => (.prefixXrXr x r.1, r.2) := by
  cases x' <;> rfl

theorem decodeAfterXr_cb (tail : List Byte) :
    decodeAfterXr u x (0xCB :: tail) = withTwo (decodeXyCb x) tail := rfl

theorem decodeAfterXr_ed (op : Byte) (tail : List Byte) : decodeAfterXr u x (0xED :: op :: tail) =
    (decodeED op tail).map fun r => (.prefixXrED x r.1, r.2) := rfl

/-- The row that stands for a member of UNDOC_UNIMPL (30_encoding R116). -/
def undocRow (x : XR) (op : Byte) : Instr :=
  match x with
  | .ix => .prefixDD op
  | .iy => .prefixFD op

theorem decodeAfterXr_undoc {op : Byte} (h : kindOf op = .plain) (hu : u.contains (x, op) = true)
    (tail : List Byte) : decodeAfterXr u x (op :: tail) = some (undocRow x op, tail) := by
  obtain ⟨hcb, hed, hx, -⟩ := ne_of_plain h
  simp only [decodeAfterXr, hx, if_neg hcb, if_neg hed, if_pos hu]
  rfl

theorem decodeAfterXr_plain {op : Byte} (h : kindOf op = .plain) (hu : u.contains (x, op) = false)
    (tail : List Byte) : decodeAfterXr u x (op :: tail) = decodeIndex x op tail := by
  obtain ⟨hcb, hed, hx, -⟩ := ne_of_plain h
  simp only [decodeAfterXr, hx, if_neg hcb, if_neg hed, if_neg (Bool.eq_false_iff.mp hu)]

theorem decodeIndex_listed {op : Byte} {tail : List Byte} {e : Entry} (h : decodeListed x op tail = some e) :
    decodeIndex x op tail = e := by
  rw [decodeIndex, h]

theorem decodeIndex_pass {op : Byte} {tail : List Byte} (h : decodeListed x op tail = none) :
    decodeIndex x op tail = (decodeBase op tail).map fun r => (.prefixXrPass x r.1, r.2) := by
  rw [decodeIndex, h]

end Sys2Proof.Machine
end

section
/-! PROOFS. Which rows agree with UNDOC_UNIMPL (30_encoding R105, R116). -/

namespace Sys2Proof.Machine

open Laws.Bytes (kindOf)

/-- A row that is its own entry agrees with UNDOC_UNIMPL where its bytes select no member. -/
theorem slotOk_of_ownEntry {i : Instr} (h : ownEntry i = true) (u : List (XR × Byte)) :
    i.slotOk u = !undocHit u (encode i) := by
  unfold Instr.slotOk
  split
  · cases h
  · cases h
  · cases h
  · rfl

/-- Bytes that begin with no index prefix select no member of UNDOC_UNIMPL. -/
theorem undocHit_of_not_index (u : List (XR × Byte)) {op : Byte} (h : xrOfLead op = none) (tail : List Byte) :
    undocHit u (op :: tail) = false := by
  cases tail with
  | nil => rfl
  | cons => simp only [undocHit, h]

/-- After an index prefix, a byte selects the member that it is, if it is none that the loop looks at first. -/
theorem undocHit_lead (u : List (XR × Byte)) (x : XR) (op : Byte) (tail : List Byte) :
    undocHit u (x.lead :: op :: tail) =
      (u.contains (x, op) && !([0xCB, 0xDD, 0xED, 0xFD] : List Byte).contains op) := by
  simp only [undocHit, xrOfLead_lead]

theorem undocHit_lead_plain (u : List (XR × Byte)) (x : XR) {op : Byte} (h : kindOf op = .plain)
    (tail : List Byte) : undocHit u (x.lead :: op :: tail) = u.contains (x, op) := by
  obtain ⟨-, -, -, hl⟩ := ne_of_plain h
  rw [undocHit_lead, hl, Bool.not_false, Bool.and_true]

/-- A row that begins with no index prefix agrees with every value of UNDOC_UNIMPL. -/
theorem wellFormedWith_of_rowOf {k : Lead} {i : Instr} {op : Byte} {operands : List Byte}
    (h : RowOf k i (op :: operands)) (hx : xrOfLead op = none) (u : List (XR × Byte)) :
    i.wellFormedWith u = true := by
  obtain ⟨he, -, hf, ho⟩ := h
  rw [Instr.wellFormedWith, hf, slotOk_of_ownEntry ho, he, undocHit_of_not_index u hx]
  rfl

/-- A row of the index table agrees with UNDOC_UNIMPL where it is no member. -/
theorem wellFormedWith_of_rowOf_index {i : Instr} {x : XR} {op : Byte} {operands : List Byte}
    (h : RowOf .index i (x.lead :: op :: operands)) {u : List (XR × Byte)}
    (hu : (u.contains (x, op) && !([0xCB, 0xDD, 0xED, 0xFD] : List Byte).contains op) = false) :
    i.wellFormedWith u = true := by
  obtain ⟨he, -, hf, ho⟩ := h
  rw [Instr.wellFormedWith, hf, slotOk_of_ownEntry ho, he, undocHit_lead, hu]
  rfl

end Sys2Proof.Machine
end

section
/-! PROOFS. What decoding answers is well-formed, and its encoding is the bytes read (30_encoding R105, R117). -/

namespace Sys2Proof.Machine

open Laws.Bytes (kindOf)

/-- An ignored prefix before an ED instruction is a row of the index table (30_encoding R114). -/
theorem rowOf_prefixXrED {i : Instr} {bytes : List Byte} (x : XR) (h : RowOf .ed i bytes) :
    RowOf .index (.prefixXrED x i) (x.lead :: bytes) := by
  obtain ⟨he, hl, hf, -⟩ := h
  refine ⟨congrArg (x.lead :: ·) he, rfl, ?_, rfl⟩
  rw [Instr.fieldsOk, hl, hf]
  rfl

/-- So is one before a base instruction that it does not modify (30_encoding R112). -/
theorem rowOf_prefixXrPass {i : Instr} {bytes : List Byte} (x : XR) (h : RowOf .plain i bytes)
    (hs : i.substituted = false) : RowOf .index (.prefixXrPass x i) (x.lead :: bytes) := by
  obtain ⟨he, hl, hf, -⟩ := h
  refine ⟨congrArg (x.lead :: ·) he, rfl, ?_, rfl⟩
  rw [Instr.fieldsOk, hl, hf, hs]
  rfl

/-- One before another is well-formed with it (30_encoding R113). -/
theorem wellFormedWith_prefixXrXr {i : Instr} (u : List (XR × Byte)) (x : XR) (h : i.lead = .index) :
    (Instr.prefixXrXr x i).wellFormedWith u = i.wellFormedWith u := by
  rw [Instr.wellFormedWith, Instr.fieldsOk, h]
  rfl

/-- A base instruction at an opcode that the index table does not list has no substituted operand
(30_encoding R111, R112). -/
theorem substituted_eq_of_rowOf {i : Instr} {op : Byte} {operands : List Byte} (h : RowOf .plain i (op :: operands))
    (x : XR) (tail : List Byte) : (decodeListed x op tail).isSome = i.substituted := by
  obtain ⟨he, hl, -, -⟩ := h
  obtain ⟨op', operands', he', -, -, hs⟩ := plainRow_of_lead hl
  obtain ⟨rfl, -⟩ := List.cons.inj (he.symm.trans he')
  exact hs x tail

/-- What the index table answers is a row of its own bytes: a listed entry, or an ignored prefix before a base
instruction. -/
theorem rowOf_of_decodeIndex {x : XR} {op : Byte} {tail rest : List Byte} {i : Instr} (hop : kindOf op = .plain)
    (h : decodeIndex x op tail = some (i, rest)) :
    ∃ operands, RowOf .index i (x.lead :: op :: operands) ∧ tail = operands ++ rest := by
  cases hd : decodeListed x op tail with
  | some e => exact rowOf_of_selects (decodeListed_selects x op tail hd) ((decodeIndex_listed x hd).symm.trans h)
  | none =>
    rw [decodeIndex_pass x hd] at h
    obtain ⟨⟨j, r⟩, hj, hr⟩ := Option.map_eq_some_iff.mp h
    cases hr
    obtain ⟨operands, hrow, htail⟩ := rowOf_of_selects (decodeBase_selects hop tail) hj
    have hs : j.substituted = false := by rw [← substituted_eq_of_rowOf hrow x tail, hd]; rfl
    exact ⟨operands, rowOf_prefixXrPass x hrow hs, htail⟩

/-- What follows an index prefix decodes to a well-formed instruction of the index table, whose bytes are the
prefix and those read: along the run of prefixes. -/
theorem encode_of_decodeAfterXr {u : List (XR × Byte)} {x : XR} {bytes rest : List Byte} {i : Instr}
    (h : decodeAfterXr u x bytes = some (i, rest)) :
    i.lead = .index ∧ i.wellFormedWith u = true ∧ encode i ++ rest = x.lead :: bytes := by
  induction bytes generalizing x i with
  | nil => cases h
  | cons op tail ih =>
    obtain hop | rfl | rfl | ⟨x', rfl⟩ := kind_cases op
    · -- a member of UNDOC_UNIMPL, or a row of the index table
      cases hu : u.contains (x, op) with
      | true =>
        rw [decodeAfterXr_undoc u x hop hu] at h
        cases h
        have hit := (undocHit_lead_plain u x hop []).trans hu
        cases x <;> exact ⟨rfl, hit, rfl⟩
      | false =>
        rw [decodeAfterXr_plain u x hop hu] at h
        obtain ⟨operands, hr, rfl⟩ := rowOf_of_decodeIndex hop h
        exact ⟨hr.lead_eq, wellFormedWith_of_rowOf_index hr (by rw [hu]; rfl), by rw [hr.encode_eq]; rfl⟩
    · -- the XYCB table
      rw [decodeAfterXr_cb] at h
      obtain ⟨operands, hr, rfl⟩ :=
        rowOf_of_selects (.two (pre := [x.lead]) (op := 0xCB) fun d op => decodeXyCb_rowOf x d op) h
      exact ⟨hr.lead_eq, wellFormedWith_of_rowOf_index hr (by simp), by rw [hr.encode_eq]; rfl⟩
    · -- an ignored prefix before the ED table
      cases tail with
      | nil => cases h
      | cons op tail =>
        rw [decodeAfterXr_ed] at h
        obtain ⟨⟨j, r⟩, hj, hr⟩ := Option.map_eq_some_iff.mp h
        cases hr
        obtain ⟨operands, hed, rfl⟩ := rowOf_of_selects (decodeED_selects op tail) hj
        have hr := rowOf_prefixXrED x hed
        exact ⟨hr.lead_eq, wellFormedWith_of_rowOf_index hr (by simp), by rw [hr.encode_eq]; rfl⟩
    · -- an ignored prefix before another
      rw [decodeAfterXr_index] at h
      obtain ⟨⟨j, r⟩, hj, hr⟩ := Option.map_eq_some_iff.mp h
      cases hr
      obtain ⟨hl, hw, he⟩ := ih hj
      exact ⟨rfl, (wellFormedWith_prefixXrXr u x hl).trans hw, congrArg (x.lead :: ·) he⟩

/-- Settles O3, by the first byte: each table hands out rows of the bytes read. -/
theorem encodeOfDecodeIsIdentity : Obligations.EncodeOfDecodeIsIdentity := by
  intro u bytes i rest h
  cases bytes with
  | nil => cases h
  | cons op tail =>
    obtain hop | rfl | rfl | ⟨x, rfl⟩ := kind_cases op
    · rw [decodeWith_plain u hop, answer_eq_ok] at h
      obtain ⟨operands, hr, rfl⟩ := rowOf_of_selects (decodeBase_selects hop tail) h
      obtain ⟨-, -, hx, -⟩ := ne_of_plain hop
      exact ⟨wellFormedWith_of_rowOf hr hx u, by rw [hr.encode_eq]; rfl⟩
    · cases tail with
      | nil => cases h
      | cons op tail =>
        cases h
        have hr := decodeCB_rowOf op
        exact ⟨wellFormedWith_of_rowOf hr rfl u, by rw [hr.encode_eq]; rfl⟩
    · cases tail with
      | nil => cases h
      | cons op tail =>
        rw [decodeWith_ed_eq, answer_eq_ok] at h
        obtain ⟨operands, hr, rfl⟩ := rowOf_of_selects (decodeED_selects op tail) h
        exact ⟨wellFormedWith_of_rowOf hr rfl u, by rw [hr.encode_eq]; rfl⟩
    · rw [decodeWith_index, answer_eq_ok] at h
      obtain ⟨-, hw, he⟩ := encode_of_decodeAfterXr h
      exact ⟨hw, he⟩

end Sys2Proof.Machine
end

section
/-! PROOFS. Every well-formed instruction of the CB, ED and index tables is found again at its own bytes
(30_encoding R107, R108, R110 to R116). -/

namespace Sys2Proof.Machine

open Laws.Bytes (kindOf)

/-- The CB table has the instruction at its own bytes. -/
def CbRow (i : Instr) : Prop := ∃ op, encode i = [0xCB, op] ∧ decodeCB op = i

/-- The instructions of the CB table, by the names in their opcode. -/
theorem cbRow_of_lead {i : Instr} (h : i.lead = .cb) (hf : i.fieldsOk = true) : CbRow i := by
  cases i with
  | prefixCB => cases hf
  | rlcAtHl | rrcAtHl | rlAtHl | rrAtHl | slaAtHl | sraAtHl | sllAtHl | srlAtHl => exact ⟨_, rfl, rfl⟩
  | rlcReg r | rrcReg r | rlReg r | rrReg r | slaReg r | sraReg r | sllReg r | srlReg r =>
    cases r <;> exact ⟨_, rfl, rfl⟩
  | bitAtHl b | resAtHl b | setAtHl b =>
    obtain ⟨k⟩ := b
    fin_cases k <;> exact ⟨_, rfl, rfl⟩
  | bitReg b r | resReg b r | setReg b r =>
    obtain ⟨k⟩ := b
    fin_cases k <;> cases r <;> exact ⟨_, rfl, rfl⟩
  | _ => cases h

/-- The ED table has the instruction at its own bytes. -/
def EdRow (i : Instr) : Prop :=
  ∃ op operands, encode i = 0xED :: op :: operands ∧ ∀ rest, decodeED op (operands ++ rest) = some (i, rest)

/-- The instructions of the ED table, by the names in their opcode and by their operand bytes. -/
theorem edRow_of_lead {i : Instr} (h : i.lead = .ed) (hf : i.fieldsOk = true) : EdRow i := by
  cases i with
  | prefixED op => exact ⟨op, [], rfl, decodeED_unpopulated (by simpa [Instr.fieldsOk] using hf)⟩
  | inFC | outC0 | reti | ldIA | ldRA | ldAI | ldAR | rrd | rld | ldi | cpi | ini | outi | ldd | cpd | ind | outd
  | ldir | cpir | inir | otir | lddr | cpdr | indr | otdr => exact ⟨_, _, rfl, fun _ => rfl⟩
  | inRegC r | outCReg r | sbcHlPair r | adcHlPair r => cases r <;> exact ⟨_, _, rfl, fun _ => rfl⟩
  | ldMemPair nn rr =>
    cases rr <;> exact ⟨_, _, rfl, withWord_bytes (Instr.ldMemPair · _) nn⟩
  | ldPairMem rr nn =>
    cases rr <;> exact ⟨_, _, rfl, withWord_bytes (Instr.ldPairMem _) nn⟩
  -- the mirrors, of which some are another row's
  | neg y | retn y | im0 y | im1 y | im2 y =>
    obtain ⟨k⟩ := y
    fin_cases k <;> cases hf <;> exact ⟨_, _, rfl, fun _ => rfl⟩
  | _ => cases h

/-- What follows the index prefix of an instruction decodes to it. -/
def IndexRow (u : List (XR × Byte)) (i : Instr) : Prop :=
  ∃ x tail, encode i = x.lead :: tail ∧ ∀ rest, decodeAfterXr u x (tail ++ rest) = some (i, rest)

section

variable {u : List (XR × Byte)}

/-- A listed entry of the index table (30_encoding R111). -/
theorem indexRow_of_listed {i : Instr} {x : XR} {op : Byte} {operands : List Byte}
    (hs : i.slotOk u = true) (ho : ownEntry i = true) (he : encode i = x.lead :: op :: operands)
    (hk : kindOf op = .plain)
    (hd : ∀ rest, decodeListed x op (operands ++ rest) = some (some (i, rest))) : IndexRow u i := by
  have hu : u.contains (x, op) = false := by
    rwa [slotOk_of_ownEntry ho, he, undocHit_lead_plain u x hk, Bool.not_eq_true'] at hs
  refine ⟨x, op :: operands, he, fun rest => ?_⟩
  rw [List.cons_append, decodeAfterXr_plain u x hk hu, decodeIndex_listed x (hd rest)]

/-- An entry of the XYCB table (30_encoding R115). -/
theorem indexRow_of_xyCb {i : Instr} {x : XR} {d op : Byte} (he : encode i = [x.lead, 0xCB, d, op])
    (hd : decodeXyCb x d op = i) : IndexRow u i :=
  ⟨x, [0xCB, d, op], he, fun rest => congrArg (fun j => some (j, rest)) hd⟩

/-- A member of UNDOC_UNIMPL (30_encoding R116). -/
theorem indexRow_of_undocHit {x : XR} {op : Byte} (h : undocHit u [x.lead, op] = true) :
    IndexRow u (undocRow x op) := by
  refine ⟨x, [op], by cases x <;> rfl, fun rest => ?_⟩
  rw [← answer_eq_ok, ← decodeWith_index]
  exact (decodeWith_undocHit h rest).trans (by cases x <;> rfl)

/-- An ignored prefix before another (30_encoding R113). -/
theorem indexRow_prefixXrXr {i : Instr} (x : XR) (h : IndexRow u i) : IndexRow u (.prefixXrXr x i) := by
  obtain ⟨x', tail, he, hd⟩ := h
  refine ⟨x, x'.lead :: tail, congrArg (x.lead :: ·) he, fun rest => ?_⟩
  rw [List.cons_append, decodeAfterXr_index, hd]
  rfl

/-- An ignored prefix before an ED instruction (30_encoding R114). -/
theorem indexRow_prefixXrED {i : Instr} (x : XR) (h : EdRow i) : IndexRow u (.prefixXrED x i) := by
  obtain ⟨op, operands, he, hd⟩ := h
  refine ⟨x, 0xED :: op :: operands, congrArg (x.lead :: ·) he, fun rest => ?_⟩
  rw [List.cons_append, List.cons_append, decodeAfterXr_ed, hd]
  rfl

/-- An ignored prefix before a base instruction that it does not modify (30_encoding R112). -/
theorem indexRow_prefixXrPass {i : Instr} (x : XR) (h : PlainRow i) (hi : i.substituted = false)
    (hs : (Instr.prefixXrPass x i).slotOk u = true) : IndexRow u (.prefixXrPass x i) := by
  obtain ⟨op, operands, he, hk, hd, hl⟩ := h
  have he' : encode (.prefixXrPass x i) = x.lead :: op :: operands := congrArg (x.lead :: ·) he
  have hu : u.contains (x, op) = false := by
    rwa [slotOk_of_ownEntry rfl, he', undocHit_lead_plain u x hk, Bool.not_eq_true'] at hs
  refine ⟨x, op :: operands, he', fun rest => ?_⟩
  have hnone : decodeListed x op (operands ++ rest) = none := by
    rw [← Option.not_isSome_iff_eq_none, hl, hi]
    decide
  rw [List.cons_append, decodeAfterXr_plain u x hk hu, decodeIndex_pass x hnone, hd]
  rfl

/-- The instructions of the index table, by the names in their opcode and by their operand bytes, and the ignored
prefixes by the instruction they stand before. -/
theorem indexRow_of_lead {i : Instr} (h : i.lead = .index) (hf : i.fieldsOk = true) (hs : i.slotOk u = true) :
    IndexRow u i := by
  induction i with
  | prefixXrCB => cases hf
  | prefixDD op => exact indexRow_of_undocHit (x := .ix) hs
  | prefixFD op => exact indexRow_of_undocHit (x := .iy) hs
  | prefixXrXr x j ih =>
    obtain ⟨hl, hj⟩ := Bool.and_eq_true_iff.mp hf
    exact indexRow_prefixXrXr x (ih (eq_of_beq hl) hj hs)
  | prefixXrED x j _ =>
    obtain ⟨hl, hj⟩ := Bool.and_eq_true_iff.mp hf
    exact indexRow_prefixXrED x (edRow_of_lead (eq_of_beq hl) hj)
  | prefixXrPass x j _ =>
    obtain ⟨hlj, -⟩ := Bool.and_eq_true_iff.mp hf
    obtain ⟨hl, hj⟩ := Bool.and_eq_true_iff.mp hlj
    exact indexRow_prefixXrPass x (plainRow_of_lead (eq_of_beq hl)) (Bool.not_eq_true' _ ▸ hj) hs
  -- the listed entries
  | incXr x | decXr x | incAtXr x _ | decAtXr x _ | ldAtXrN x _ _ | addAtXr x _ | adcAtXr x _ | subAtXr x _
  | sbcAtXr x _ | andAtXr x _ | xorAtXr x _ | orAtXr x _ | cpAtXr x _ | popXr x | pushXr x | exSpXr x | jpXr x
  | ldSpXr x =>
    exact indexRow_of_listed hs rfl rfl rfl fun _ => rfl
  | addXrPair x p | incXrHalf x p | decXrHalf x p | ldXrHalfN x p _ | addXrHalf x p | adcXrHalf x p | subXrHalf x p
  | sbcXrHalf x p | andXrHalf x p | xorXrHalf x p | orXrHalf x p | cpXrHalf x p | ldRegAtXr x p _ | ldAtXrReg x _ p =>
    cases p <;> exact indexRow_of_listed hs rfl rfl rfl fun _ => rfl
  | ldRegRegXr x r r' =>
    cases r <;> cases r' <;> cases hf <;> exact indexRow_of_listed hs rfl rfl rfl fun _ => rfl
  | ldXrNn x nn | ldMemXr x nn | ldXrMem x nn =>
    exact indexRow_of_listed hs rfl rfl rfl fun rest => congrArg some (withWord_bytes _ nn rest)
  -- the XYCB table
  | rlcAtXr x d | rrcAtXr x d | rlAtXr x d | rrAtXr x d | slaAtXr x d | sraAtXr x d | sllAtXr x d | srlAtXr x d =>
    exact indexRow_of_xyCb rfl rfl
  | rlcAtXrReg x d r | rrcAtXrReg x d r | rlAtXrReg x d r | rrAtXrReg x d r | slaAtXrReg x d r | sraAtXrReg x d r
  | sllAtXrReg x d r | srlAtXrReg x d r =>
    cases r <;> exact indexRow_of_xyCb rfl rfl
  | resAtXr x d b | setAtXr x d b =>
    obtain ⟨k⟩ := b
    fin_cases k <;> exact indexRow_of_xyCb rfl rfl
  | resAtXrReg x d b r | setAtXrReg x d b r =>
    obtain ⟨k⟩ := b
    fin_cases k <;> cases r <;> exact indexRow_of_xyCb rfl rfl
  | bitAtXr x d b z =>
    obtain ⟨k⟩ := b
    obtain ⟨l⟩ := z
    fin_cases k <;> fin_cases l <;> exact indexRow_of_xyCb rfl rfl
  | _ => cases h

end

/-- Settles O2, by the kind of the first byte: each table has a well-formed instruction at its own bytes. -/
theorem decodeOfEncodeIsIdentity : Obligations.DecodeOfEncodeIsIdentity := by
  intro u i rest hw
  obtain ⟨hf, hs⟩ := Bool.and_eq_true_iff.mp hw
  cases hl : i.lead with
  | plain =>
    obtain ⟨op, operands, he, hk, hd, -⟩ := plainRow_of_lead hl
    rw [he, List.cons_append, decodeWith_plain u hk, hd]
    rfl
  | cb =>
    obtain ⟨op, he, rfl⟩ := cbRow_of_lead hl hf
    rw [he]
    rfl
  | ed =>
    obtain ⟨op, operands, he, hd⟩ := edRow_of_lead hl hf
    rw [he, List.cons_append, List.cons_append, decodeWith_ed_eq, hd]
    rfl
  | index =>
    obtain ⟨x, tail, he, hd⟩ := indexRow_of_lead hl hf hs
    rw [he, List.cons_append, decodeWith_index, hd]
    rfl

end Sys2Proof.Machine
end

section
/-! PROOFS. The fetch of a whole instruction (10_state R36, R46; 30_encoding R104), and R_inc. -/

namespace Sys2Proof.Machine

/-- Fetching an instruction: PC, R, the transactions and the draws, nothing else (10_state R36). -/
theorem fetched_eq (s : State) (i : Instr) : s.fetched i = { s with
    pc := s.pc + BitVec.ofNat 16 i.size, r := (s.fetched i).r, bus := (s.fetched i).bus
    draws := s.draws + i.size } := by
  have hsize : i.m1 + (i.size - i.m1) = i.size := Nat.add_sub_cancel' (m1_bounds i).2
  have h : s.fetched i = { s with
      pc := s.pc + BitVec.ofNat 16 i.m1 + BitVec.ofNat 16 (i.size - i.m1), r := (s.fetched i).r
      bus := (s.fetched i).bus, draws := s.draws + i.m1 + (i.size - i.m1) } := by
    unfold State.fetched
    rw [fetchBytes_eq, fetchOps_eq]
  rwa [BitVec.add_assoc, ← BitVec.ofNat_add, Nat.add_assoc, hsize] at h

/-- R after a fetch: the opcode fetches count, the operand fetches do not (10_state R46). -/
theorem fetched_r (s : State) (i : Instr) : (s.fetched i).r = (State.fetchOps i.m1 s).r := by
  unfold State.fetched
  rw [fetchBytes_eq]

/-- The transaction of the k-th fetch of an instruction with this many opcode fetches (30_encoding R104). -/
def State.fetchEvent (s : State) (m1 k : Nat) : BusEvent :=
  { kind := if k < m1 then .m1 else .mr, addr := s.pc + BitVec.ofNat 16 k
    data := s.codeAt k (s.pc + BitVec.ofNat 16 k) }

/-- The transactions of a fetch, in order: opcode bytes, then operand bytes (30_encoding R104). -/
theorem fetched_bus (s : State) (i : Instr) :
    (s.fetched i).bus = s.bus ++ (List.range i.size).map (s.fetchEvent i.m1) := by
  have hsize : i.size = i.m1 + (i.size - i.m1) := (Nat.add_sub_cancel' (m1_bounds i).2).symm
  have hc (k : Nat) (a : Word) : (State.fetchOps i.m1 s).codeAt k a = s.codeAt (i.m1 + k) a := by
    refine codeAt_congr ?_ ?_ ?_ a <;> rw [fetchOps_eq]
    exact Nat.add_assoc ..
  have hops : (List.range i.m1).map (s.fetchEvent i.m1) = (List.range i.m1).map fun k =>
      { kind := .m1, addr := s.pc + BitVec.ofNat 16 k, data := s.codeAt k (s.pc + BitVec.ofNat 16 k) } :=
    List.map_congr_left fun k hk => by rw [State.fetchEvent, if_pos (List.mem_range.mp hk)]
  rw [hsize, List.range_add, List.map_append, hops, ← List.append_assoc]
  unfold State.fetched
  rw [fetchBytes_eq]
  simp only [hc]
  rw [fetchOps_eq]
  simp only [List.map_map, List.append_cancel_left_eq]
  refine List.map_congr_left fun k _ => ?_
  simp [State.fetchEvent, BitVec.add_assoc, BitVec.ofNat_add]

/-- Settles O5: the opcode fetches, then the operand fetches. -/
theorem fetchReadsEveryByte : Obligations.FetchReadsEveryByte := by
  refine fun s i => ⟨fetched_eq s i, fetched_r7 s i, ?_, fetched_bus s i⟩
  rw [fetched_r]
  exact (fetchOps_r i.m1 s).2

/-- Settles O20: R_inc is one opcode fetch's count of R. -/
theorem refreshCounterWraps : Obligations.RefreshCounterWraps := by
  intro s
  obtain ⟨h7, hlow⟩ := fetchOps_r 1 s
  have hr : (State.fetchOps 1 s).r = s.rInc.r := rfl
  rw [hr] at h7 hlow
  refine ⟨rfl, h7, ?_⟩
  rwa [Nat.mod_add_mod]

end Sys2Proof.Machine
end

section
/-! PROOFS. What an instruction step starts from and ends in: the decoded instruction, the state after its fetch,
and the settling of a fault (60_exceptions R420, R425, R441). -/

namespace Sys2Proof.Machine

/-- The instruction at an address is well-formed and its bytes are the first that the decoder reads there
(30_encoding R105). -/
theorem encode_of_instrAt {s : State} {a : Word} {i : Instr} (h : s.instrAt a = .ok i) :
    i.wellFormedWith s.params.undocUnimpl = true ∧ ∃ rest, encode i ++ rest = s.window a := by
  unfold State.instrAt at h
  split at h
  case h_1 j rest hd =>
    cases h
    obtain ⟨hw, he⟩ := encodeOfDecodeIsIdentity _ _ _ _ hd
    exact ⟨hw, rest, he⟩
  case h_2 => cases h

/-- A fetch keeps the control part but for R (10_state R36, R46). -/
theorem fetched_control (s : State) (i : Instr) :
    (s.fetched i).control = { s.control with r := (s.fetched i).r } := by
  rw [fetched_eq]
  rfl

@[simp] theorem fetched_mem (s : State) (i : Instr) : (s.fetched i).mem = s.mem := by rw [fetched_eq]

@[simp] theorem fetched_params (s : State) (i : Instr) : (s.fetched i).params = s.params := by rw [fetched_eq]

@[simp] theorem fetched_pc (s : State) (i : Instr) : (s.fetched i).pc = s.pc + BitVec.ofNat 16 i.size := by
  rw [fetched_eq]

/-- A settled step is the result itself where it raised nothing, and otherwise the state at its start but for
the record, the transactions, the T-states and the draws (60_exceptions R441). -/
theorem settleFault_cases {s t : State} {o : Result} (h : settleFault s o = .next t) :
    (o = .next t ∧ t.fault = none) ∨
      ∃ r bus draws, t = { s with fault := some r, bus := bus, tstates := none, draws := draws } := by
  cases o with
  | fault | refused => cases h
  | next u =>
    cases hu : u.fault with
    | none =>
      obtain rfl : u = t := by simpa [settleFault, hu] using h
      exact .inl ⟨rfl, hu⟩
    | some r => exact .inr ⟨r, u.bus, u.draws, by simpa [settleFault, hu] using h.symm⟩

/-- The control part after an instruction step that raised nothing, from that of its start (60_exceptions R420,
R425). -/
theorem control_of_instr {s t : State} {i : Instr} (hi : s.instrAt s.pc = .ok i)
    (ht : exec i (s.beginStep.tickEi.fetched i) = .next t) :
    t.control = controlAfter (body i) (s.beginStep.tickEi.fetched i) := by
  obtain ⟨hw, -⟩ := encode_of_instrAt hi
  exact exec_control (by rw [fetched_params]; exact hw) ht

/-- Only EI writes ei_delay (60_exceptions R425; 44_general R269). -/
theorem controlAfter_eiDelay (i : Instr) (s : State) :
    (controlAfter i s).eiDelay = if i = .ei then 1 else s.eiDelay := by
  cases i with
  | ei => rfl
  | _ => rfl

/-- ei_delay after the fetch of an instruction step. -/
theorem fetched_tickEi_eiDelay (s : State) (i : Instr) :
    (s.beginStep.tickEi.fetched i).eiDelay = s.eiDelay - 1 := by
  rw [fetched_eq]
  rfl

/-- Settles O10: ei_delay after an instruction is what its row leaves of the value counted down; and with
ei_delay 1 no INT is accepted, so the step runs the instruction. -/
theorem onlyEiDelaysInterrupts : Obligations.OnlyEiDelaysInterrupts := by
  refine ⟨fun s t i hf hn ha hh hi ht htf => ?_, fun s level i hf hn hh he hi => ?_⟩
  · rw [step_of_instr hf hn ha hh hi] at ht
    obtain ⟨hexec, -⟩ | ⟨r, bus, draws, rfl⟩ := settleFault_cases ht
    · have hei : t.eiDelay = (controlAfter (body i) (s.beginStep.tickEi.fetched i)).eiDelay :=
        congrArg Control.eiDelay (control_of_instr hi hexec)
      rw [hei, controlAfter_eiDelay, fetched_tickEi_eiDelay]
    · cases htf
  · have ha : State.acceptsInt { s with intLine := level } = false := by simp [State.acceptsInt, he]
    have hi' : State.instrAt { s with intLine := level } s.pc = .ok i :=
      (instrAt_congr (s := s) (t := { s with intLine := level }) rfl rfl rfl s.pc).trans hi
    rw [step_of_instr (s := { s with intLine := level }) hf hn ha hh hi']
    simp only [State.beginStep, State.tickEi, he]

end Sys2Proof.Machine
end

section
/-! PROOFS. What each shared operation of the families writes to memory, and that every row keeps memory canonical
(20_memory R74). -/

namespace Sys2Proof.Machine

@[simp] theorem aluA_mem (s : State) (op : AluOp) (v : Byte) : (s.aluA op v).mem = s.mem := rfl

@[simp] theorem raise_mem (s : State) (kind : FaultKind) : (s.raise kind).mem = s.mem := rfl

@[simp] theorem setReg8Xr_mem (s : State) (x : XR) (r : Reg8) (v : Byte) : (s.setReg8Xr x r v).mem = s.mem := by
  cases r <;> simp [State.setReg8Xr]

@[simp] theorem modifyReg_mem (s : State) (r : Reg8) (op : Byte → Byte → Byte × Byte) :
    (s.modifyReg r op).mem = s.mem := by simp [modifyReg_eq]

@[simp] theorem modifyXrHalf_mem (s : State) (x : XR) (p : Half) (op : Byte → Byte → Byte × Byte) :
    (s.modifyXrHalf x p op).mem = s.mem := by simp [modifyXrHalf_eq]

@[simp] theorem modifyAt_mem (s : State) (a : Word) (op : Byte → Byte → Byte × Byte) :
    (s.modifyAt a op).mem = memSet s.mem a.toNat (op (s.byteAt a) s.f).1 := rfl

@[simp] theorem modifyAtCopy_mem (s : State) (a : Word) (r : Reg8) (op : Byte → Byte → Byte × Byte) :
    (s.modifyAtCopy a r op).mem = memSet s.mem a.toNat (op (s.byteAt a) s.f).1 := by rw [modifyAtCopy_eq]

@[simp] theorem writeWordAt_mem (s : State) (a v : Word) : (s.writeWordAt a v).mem =
    memSet (memSet s.mem a.toNat (loByte v)) (a + 1).toNat (hiByte v) := rfl

@[simp] theorem ioRead_mem (s : State) (port : Word) : (s.ioRead port).2.mem = s.mem := rfl

@[simp] theorem ioWrite_mem (s : State) (port : Word) (v : Byte) : (s.ioWrite port v).mem = s.mem := rfl

@[simp] theorem pop_mem (s : State) : s.pop.2.mem = s.mem := rfl

@[simp] theorem callTo_mem (s : State) (target : Word) : (s.callTo target).mem = (s.push s.pc).mem := rfl

@[simp] theorem returnTo_mem (s : State) : s.returnTo.mem = s.mem := by rw [returnTo_eq]

@[simp] theorem returnFromInterrupt_mem (s : State) : s.returnFromInterrupt.mem = s.mem := by
  rw [returnFromInterrupt_eq]

@[simp] theorem scfBits_mem (s : State) : s.scfBits.2.mem = s.mem := by rw [scfBits_eq]

@[simp] theorem rotateA_mem (s : State) (k : Rot) : (s.rotateA k).mem = s.mem := rfl

@[simp] theorem digitRotate_mem (s : State) (byte a : Byte) :
    (s.digitRotate byte a).mem = memSet s.mem s.hl.toNat byte := rfl

@[simp] theorem exchangeTop_mem (s : State) (v : Word) : (s.exchangeTop v).mem =
    memSet (memSet s.mem (s.sp + 1).toNat (hiByte v)) s.sp.toNat (loByte v) := rfl

@[simp] theorem repeatBlock_mem (s : State) (io again : Bool) : (s.repeatBlock io again).mem = s.mem := by
  rw [repeatBlock_eq]

@[simp] theorem blockLoad_mem (s : State) (step : Word) :
    (s.blockLoad step).mem = memSet s.mem s.de.toNat (s.byteAt s.hl) := rfl

@[simp] theorem blockCompare_mem (s : State) (step : Word) : (s.blockCompare step).mem = s.mem := rfl

@[simp] theorem blockIn_mem (s : State) (step : Word) :
    (s.blockIn step).mem = memSet s.mem s.hl.toNat (Config.ioAnswer s.draws s.bc) := rfl

@[simp] theorem blockOut_mem (s : State) (step : Word) : (s.blockOut step).mem = s.mem := rfl

/-- The result, if it is a next state, has its memory in the canonical form. -/
def KeepsWf (o : Result) : Prop := ∀ t, o = .next t → Memory.wf t.mem = true

theorem keepsWf_next {t : State} (h : Memory.wf t.mem = true) : KeepsWf (.next t) := fun u hu => by
  cases hu
  exact h

theorem keepsWf_ite {p : Prop} [Decidable p] {o o' : Result} (h : KeepsWf o) (h' : KeepsWf o') :
    KeepsWf (if p then o else o') := by
  split
  · exact h
  · exact h'

/-- The T-states that ignored prefixes add are no memory. -/
theorem keepsWf_addT {o : Result} (n : Nat) (h : KeepsWf o) : KeepsWf (o.addT n) := by
  cases o with
  | next t => exact keepsWf_next (h t rfl)
  | fault | refused => exact fun _ h => nomatch h

theorem runCbEntry_wf (op : Byte) {s : State} (h : Memory.wf s.mem = true) : KeepsWf (runCbEntry op s) := by
  unfold runCbEntry
  split
  · exact keepsWf_ite (keepsWf_next (by simp [h])) (keepsWf_next (by simpa using h))
  · exact keepsWf_ite (keepsWf_next (by simp [h])) (keepsWf_next (by simp [memSet_wf, h]))

theorem runXyCbEntry_wf (x : XR) (d op : Byte) {s : State} (h : Memory.wf s.mem = true) :
    KeepsWf (runXyCbEntry x d op s) := by
  refine keepsWf_ite (keepsWf_next (by simp [h])) ?_
  split
  · exact keepsWf_next (by simp [memSet_wf, h])
  · exact keepsWf_next (by simp [memSet_wf, h])

/-- Every row keeps memory canonical: it writes it by `memSet` alone. -/
theorem runRow_wf (i : Instr) {s : State} (h : Memory.wf s.mem = true) : KeepsWf (runRow i s) := by
  induction i with
  | prefixXrXr _ _ ih => exact keepsWf_addT 4 ih
  | prefixXrED _ _ ih => exact keepsWf_addT 4 ih
  | prefixXrPass _ _ ih => exact keepsWf_addT 4 ih
  | prefixCB => exact runCbEntry_wf _ h
  | prefixXrCB => exact runXyCbEntry_wf _ _ _ h
  | jpCond | jrCond | djnz | retCond => exact keepsWf_ite (keepsWf_next (by simp [h])) (keepsWf_next (by simp [h]))
  | callCond => exact keepsWf_ite (keepsWf_next (by simp [push_wf, h])) (keepsWf_next (by simp [h]))
  | pushPair | pushXr | rst | call => exact keepsWf_next (by simp [push_wf, h])
  | _ => exact keepsWf_next (by simp [memSet_wf, h, -BitVec.toNat_add])

end Sys2Proof.Machine
end

section
/-! PROOFS. The invariants of the step (10_state R47, R51, R52). -/

namespace Sys2Proof.Machine

/-- The part of the invariant that speaks of the control part: ei_delay, and IFF1 and IFF2. -/
def Control.Ok (k : Control) : Prop :=
  k.eiDelay ≤ 1 ∧ (k.halted = true → k.eiDelay = 0) ∧ (k.iff1 = true → k.iff2 = true)

theorem inv_of_control {t : State} {k : Control} (hm : Memory.wf t.mem = true) (hc : t.control = k) (hk : k.Ok) :
    Inv t := by
  subst hc
  exact ⟨hm, hk⟩

theorem params_of_control {t : State} {k : Control} (hc : t.control = k) : t.params = k.params :=
  congrArg Control.params hc

/-- An instruction that starts with ei_delay counted down to 0 and IFF1 never set without IFF2 leaves them so:
EI sets both and does not halt, HALT leaves ei_delay 0 (10_state R47, R52). -/
theorem controlAfter_ok (i : Instr) {s : State} (he : s.eiDelay = 0) (hh : s.halted = false)
    (hi : s.iff1 = true → s.iff2 = true) : (controlAfter i s).Ok := by
  have hs : s.control.Ok := ⟨he.trans_le (Nat.zero_le 1), fun _ => he, hi⟩
  obtain ⟨h1, h0, -⟩ := hs
  cases i with
  | ei => exact ⟨Nat.le_refl 1, fun h => absurd (hh.symm.trans h) Bool.false_ne_true, fun _ => rfl⟩
  | di => exact ⟨h1, h0, fun h => absurd h Bool.false_ne_true⟩
  | retn | reti => exact ⟨h1, h0, id⟩
  | halt => exact ⟨h1, fun _ => he, hi⟩
  | _ => exact ⟨h1, h0, hi⟩

theorem controlAfter_params (i : Instr) (s : State) : (controlAfter i s).params = s.params := by
  cases i <;> rfl

/-- An NMI or INT acceptance clears IFF1 and leaves the halted state (60_exceptions R430, R432). -/
theorem ok_of_accepted {k : Control} (he : k.eiDelay ≤ 1) (hh : k.halted = false) (hi : k.iff1 = false) : k.Ok :=
  ⟨he, fun h => absurd (hh.symm.trans h) Bool.false_ne_true, fun h => absurd (hi.symm.trans h) Bool.false_ne_true⟩

/-- The control part after a halted step: R and ei_delay count (60_exceptions R425, R426). -/
theorem tickedHaltedStep_control (s : State) : s.beginStep.tickEi.haltedStep.control =
    { s.control with r := s.rInc.r, eiDelay := s.eiDelay - 1 } := by
  simp [State.control, State.haltedStep, State.rInc, State.tickEi]

/-- Settles O21, outcome by outcome of the step. -/
theorem stepKeepsInvariant : Obligations.StepKeepsInvariant := by
  intro s t h
  obtain ⟨-, ⟨-, rfl⟩ | ⟨-, -, rfl⟩ | ⟨-, -, -, rfl⟩ | ⟨-, -, hh, i, hi, ht⟩⟩ := step_cases h
  case inl =>
    have hc := acceptNmi_control s.beginStep
    exact ⟨fun ⟨hm, he, _, _⟩ => inv_of_control (acceptNmi_wf hm) hc (ok_of_accepted he rfl rfl),
      params_of_control hc⟩
  case inr.inl =>
    have hc := acceptInt_control s.beginStep s.busByte
    exact ⟨fun ⟨hm, he, _, _⟩ => inv_of_control (acceptInt_wf _ hm) hc (ok_of_accepted he rfl rfl),
      params_of_control hc⟩
  case inr.inr.inl =>
    have hc := tickedHaltedStep_control s
    refine ⟨fun ⟨hm, he, _, hiff⟩ => inv_of_control (by simpa [State.haltedStep] using hm) hc ?_,
      params_of_control hc⟩
    exact ⟨Nat.le_trans (Nat.sub_le ..) he, fun _ => Nat.sub_eq_zero_of_le he, hiff⟩
  case inr.inr.inr =>
    obtain ⟨hexec, -⟩ | ⟨r, bus, draws, rfl⟩ := settleFault_cases ht
    · have hc := control_of_instr hi hexec
      refine ⟨fun ⟨hm, he, _, hiff⟩ => inv_of_control ?_ hc ?_, (params_of_control hc).trans ?_⟩
      · obtain ⟨hw, -⟩ := encode_of_instrAt hi
        rw [exec_eq_runRow (by rw [fetched_params]; exact hw)] at hexec
        exact runRow_wf i (by rw [fetched_mem]; exact hm) t hexec
      · refine controlAfter_ok _ ?_ ?_ ?_ <;> rw [fetched_eq]
        · exact Nat.sub_eq_zero_of_le he
        · exact hh
        · exact hiff
      · rw [controlAfter_params, fetched_params]
        rfl
    · exact ⟨id, rfl⟩

end Sys2Proof.Machine
end

section
/-! PROOFS. PC while halted (10_state R51): HALT puts PC back on its last byte, which is 0x76. -/

namespace Sys2Proof.Machine

/-- Only HALT sets the halted bit (44_general R267). -/
theorem body_eq_halt {i : Instr} {s : State} (hs : s.halted = false) (h : (controlAfter i s).halted = true) :
    i = .halt := by
  cases i with
  | halt => rfl
  | _ => exact absurd (hs.symm.trans h) Bool.false_ne_true

/-- HALT, under whatever ignored prefixes, halts with PC put back by one (44_general R267). -/
theorem runRow_of_halt {i : Instr} (h : body i = .halt) (s : State) :
    ∃ n, runRow i s = .next { s with halted := true, pc := s.pc - 1, tstates := some n } := by
  induction i with
  | prefixXrXr x j ih | prefixXrED x j ih | prefixXrPass x j ih =>
    obtain ⟨n, hn⟩ := ih h
    exact ⟨n + 4, congrArg (Result.addT · 4) hn⟩
  | halt => exact ⟨4, rfl⟩
  | _ => cases h

/-- The last byte of a HALT under whatever ignored prefixes is 0x76 (44_general R267). -/
theorem getLast?_encode_of_halt {i : Instr} (h : body i = .halt) : (encode i).getLast? = some 0x76 := by
  induction i with
  | prefixXrXr x j ih | prefixXrED x j ih | prefixXrPass x j ih =>
    exact (List.getLast?_cons ..).trans (by rw [ih h]; rfl)
  | halt => rfl
  | _ => cases h

/-- The last byte of the instruction at an address, as the memory device answers its fetch. -/
theorem getLast?_encode_of_instrAt {s : State} {a : Word} {i : Instr} (h : s.instrAt a = .ok i) :
    (encode i).getLast? = some (s.codeAt (i.size - 1) (a + BitVec.ofNat 16 (i.size - 1))) := by
  obtain ⟨-, rest, hrest⟩ := encode_of_instrAt h
  obtain ⟨h1, h2⟩ := m1_bounds i
  have hlt : i.size - 1 < (encode i).length := Nat.sub_lt (Nat.lt_of_lt_of_le h1 h2) Nat.one_pos
  have hw : i.size - 1 < s.lastRunEnd a + 5 := by
    have := congrArg List.length hrest
    rw [State.window, length_bytesFrom, List.length_append] at this
    omega
  rw [List.getLast?_eq_getElem?]
  change (encode i)[i.size - 1]? = _
  rw [← List.getElem?_append_left (l₂ := rest) hlt, hrest, State.window]
  exact (getElem?_bytesFrom s _ 0 a _ hw).trans (by rw [Nat.zero_add])

/-- Settles O22: only HALT halts, and then PC is on the last byte of its encoding, which RAM still holds. -/
theorem stepKeepsHaltAddress : Obligations.StepKeepsHaltAddress := by
  intro s t hs h
  have hp : t.params = s.params := (stepKeepsInvariant s t h).2
  intro hram hhalt
  rw [hp] at hram
  obtain ⟨-, ⟨-, rfl⟩ | ⟨-, -, rfl⟩ | ⟨-, -, hh, rfl⟩ | ⟨-, -, hh, i, hi, ht⟩⟩ := step_cases h
  case inl =>
    have hc := congrArg Control.halted (acceptNmi_control s.beginStep)
    exact absurd (hc.symm.trans hhalt) Bool.false_ne_true
  case inr.inl =>
    have hc := congrArg Control.halted (acceptInt_control s.beginStep s.busByte)
    exact absurd (hc.symm.trans hhalt) Bool.false_ne_true
  case inr.inr.inl => simpa [State.haltedStep, State.cell] using hs hram hh
  case inr.inr.inr =>
    obtain ⟨hexec, -⟩ | ⟨r, bus, draws, rfl⟩ := settleFault_cases ht
    · have hbody : body i = .halt := by
        refine body_eq_halt (s := s.beginStep.tickEi.fetched i) (by rw [fetched_eq]; exact hh) ?_
        rw [← control_of_instr hi hexec]
        exact hhalt
      obtain ⟨hw, -⟩ := encode_of_instrAt hi
      rw [exec_eq_runRow (by rw [fetched_params]; exact hw)] at hexec
      obtain ⟨n, hn⟩ := runRow_of_halt hbody (s.beginStep.tickEi.fetched i)
      cases hn.symm.trans hexec
      have hlast := (getLast?_encode_of_instrAt hi).symm.trans (getLast?_encode_of_halt hbody)
      rw [codeAt_of_ram hram] at hlast
      have hpc : s.pc + BitVec.ofNat 16 i.size - 1 = s.pc + BitVec.ofNat 16 (i.size - 1) := by
        obtain ⟨h1, h2⟩ := m1_bounds i
        rw [← Nat.sub_add_cancel (Nat.le_trans h1 h2), BitVec.ofNat_add, Nat.add_sub_cancel, ← BitVec.add_assoc]
        exact BitVec.add_sub_cancel ..
      refine Eq.trans ?_ (Option.some.inj hlast)
      rw [← hpc]
      show memGet (s.beginStep.tickEi.fetched i).mem ((s.beginStep.tickEi.fetched i).pc - 1).toNat = _
      rw [fetched_mem, fetched_pc]
      rfl
    · exact absurd (hh.symm.trans hhalt) Bool.false_ne_true

end Sys2Proof.Machine
end

section
/-! PROOFS. A step runs the instruction that any number of bytes fetched at PC decode to (60_exceptions R420, R427). -/

namespace Sys2Proof.Machine

/-- Bytes after those that an instruction was read from are left over (30_encoding R105). -/
theorem decodeWith_append {u : List (XR × Byte)} {bytes rest : List Byte} {i : Instr}
    (h : decodeWith u bytes = .ok (i, rest)) (more : List Byte) :
    decodeWith u (bytes ++ more) = .ok (i, rest ++ more) := by
  obtain ⟨hw, he⟩ := encodeOfDecodeIsIdentity u bytes i rest h
  rw [← he, List.append_assoc]
  exact decodeOfEncodeIsIdentity u i (rest ++ more) hw

/-- Where some number of fetched bytes decode, after whatever bytes in front, the bytes that the decoder may read
do, and to the same instruction: its bytes are in both (30_encoding R113, log entry 11). -/
theorem decodeWith_window {s : State} {u : List (XR × Byte)} {front rest : List Byte} {n : Nat} {a : Word} {i : Instr}
    (h : decodeWith u (front ++ s.bytesFrom n 0 a) = .ok (i, rest)) :
    ∃ rest', decodeWith u (front ++ s.window a) = .ok (i, rest') := by
  cases hd : decodeWith u (front ++ s.window a) with
  | ok r =>
    obtain ⟨j, rest'⟩ := r
    have hi := decodeWith_append h (s.bytesFrom (s.lastRunEnd a + 5) (0 + n) (a + BitVec.ofNat 16 n))
    rw [List.append_assoc, ← bytesFrom_add, Nat.add_comm, bytesFrom_add, ← List.append_assoc] at hi
    have hj := decodeWith_append hd
      (s.bytesFrom n (0 + (s.lastRunEnd a + 5)) (a + BitVec.ofNat 16 (s.lastRunEnd a + 5)))
    obtain ⟨rfl, -⟩ := Prod.mk.inj (Except.ok.inj (hj.symm.trans hi))
    exact ⟨rest', rfl⟩
  | error e =>
    -- the bytes in front and the run at the address are index prefixes without an end
    have hlen : (front ++ s.window a).length = front.length + (s.lastRunEnd a + 5) := by
      rw [List.length_append, State.window, length_bytesFrom]
    have hpre {k : Nat} {v : Byte} (hk : (front ++ s.window a)[k]? = some v)
        (hle : k ≤ front.length + s.lastRunEnd a) : isIndexPrefix v = true := by
      by_contra hv
      obtain ⟨r, hr⟩ := decodeWith_isOk u hk (Bool.eq_false_iff.mpr hv) (by omega)
      cases hd.symm.trans hr
    have hrun := run_ends_by_lastRunEnd (s := s) (a := a) fun k hk => by
      refine hpre (k := front.length + k) ?_ (by omega)
      rw [List.getElem?_append_right (Nat.le_add_right ..), Nat.add_sub_cancel_left, State.window,
        getElem?_bytesFrom _ _ _ _ k (by omega), Nat.zero_add]
    obtain ⟨e', he'⟩ := decodeWith_error u (l := front ++ s.bytesFrom n 0 a) fun v hv => by
      obtain hv | hv := List.mem_append.mp hv
      · obtain ⟨k, hk⟩ := List.mem_iff_getElem?.mp hv
        have hlt : k < front.length := (List.getElem?_eq_some_iff.mp hk).1
        exact hpre (by rwa [List.getElem?_append_left hlt]) (by omega)
      · obtain ⟨k, hk⟩ := List.mem_iff_getElem?.mp hv
        have hlt : k < n := length_bytesFrom s n 0 a ▸ (List.getElem?_eq_some_iff.mp hk).1
        rw [getElem?_bytesFrom _ _ _ _ k hlt, Nat.zero_add] at hk
        exact Option.some.inj hk ▸ hrun k
    cases h.symm.trans he'

/-- The instruction at an address is what any number of the bytes fetched there decode to. -/
theorem instrAt_of_decode {s : State} {n : Nat} {a : Word} {i : Instr} {rest : List Byte}
    (h : decodeWith s.params.undocUnimpl (s.bytesFrom n 0 a) = .ok (i, rest)) : s.instrAt a = .ok i := by
  obtain ⟨rest', h'⟩ := decodeWith_window (front := []) h
  rw [State.instrAt, show decodeWith s.params.undocUnimpl (s.window a) = .ok (i, rest') from h']

/-- Settles O6: the instruction at PC is the one decoded. -/
theorem stepRunsDecodedInstruction : Obligations.StepRunsDecodedInstruction :=
  fun _ _ _ _ hf hn ha hh hd => step_of_instr hf hn ha hh (instrAt_of_decode hd)

/-- A step in a state with no fault answers a next state, or it stops where there is no event to take and no
instruction at PC (60_exceptions R420, log entry 11). -/
theorem step_next_or_endless {s : State} (hf : s.fault = none) : (∃ t, step s = .next t) ∨
    (s.nmiPending = false ∧ s.acceptsInt = false ∧ s.halted = false ∧ (∃ e, s.instrAt s.pc = .error e) ∧
      step s = .fault .endlessPrefixRun) := by
  cases hn : s.nmiPending with
  | true => exact .inl ⟨_, step_of_nmi hf hn⟩
  | false =>
    cases ha : s.acceptsInt with
    | true => exact .inl ⟨_, step_of_int hf hn ha⟩
    | false =>
      cases hh : s.halted with
      | true => exact .inl ⟨_, step_of_halted hf hn ha hh⟩
      | false =>
        cases hi : s.instrAt s.pc with
        | error e => exact .inr ⟨rfl, rfl, rfl, ⟨e, rfl⟩, step_of_endless hf hn ha hh hi⟩
        | ok i =>
          obtain ⟨hw, -⟩ := encode_of_instrAt hi
          obtain ⟨t, ht, -⟩ := exec_leaves (i := i) (s := s.beginStep.tickEi.fetched i)
            (by rw [fetched_params]; exact hw)
          rw [step_of_instr hf hn ha hh hi, ht]
          refine .inl ?_
          cases hu : t.fault <;> simp [settleFault, hu]

/-- Settles O14: a step stops exactly where there is no event to take and the run of index prefixes never ends. -/
theorem endlessPrefixRunStops : Obligations.EndlessPrefixRunStops := by
  intro s hf
  have hrun : (∃ e, s.instrAt s.pc = .error e) ↔
      ∀ k, s.codeAt k (s.pc + BitVec.ofNat 16 k) = 0xDD ∨ s.codeAt k (s.pc + BitVec.ofNat 16 k) = 0xFD :=
    (instrAt_error_iff s s.pc).trans (by simp [isIndexPrefix])
  have hstops : s.nmiPending = false ∧ s.acceptsInt = false ∧ s.halted = false ∧
      (∃ e, s.instrAt s.pc = .error e) → step s = .fault .endlessPrefixRun := by
    rintro ⟨hn, ha, hh, e, he⟩
    exact step_of_endless hf hn ha hh he
  rw [← hrun]
  obtain ⟨t, ht⟩ | ⟨hn, ha, hh, he, hstep⟩ := step_next_or_endless hf
  · refine ⟨.inl ⟨t, ht⟩, fun h => ?_, hstops⟩
    cases ht.symm.trans h
  · exact ⟨.inr hstep, fun _ => ⟨hn, ha, hh, he⟩, hstops⟩

end Sys2Proof.Machine
end

section
/-! PROOFS. Instructions under a run of ignored prefixes, and the faults raised there (30_encoding R113, R114;
60_exceptions R441, R442). -/

namespace Sys2Proof.Machine

/-- The row of an index prefix before an ED instruction or before another prefixed one (30_encoding R113, R114). -/
def underPrefix (x : XR) (i : Instr) : Instr := if i.lead = .ed then .prefixXrED x i else .prefixXrXr x i

/-- An instruction under a run of index prefixes. -/
def underRun (run : List XR) (i : Instr) : Instr := run.foldr underPrefix i

/-- An index prefix in front is one byte, one opcode fetch, and no other instruction. -/
theorem underPrefix_spec (x : XR) (i : Instr) : encode (underPrefix x i) = xrCode x :: encode i ∧
    (underPrefix x i).m1 = i.m1 + 1 ∧ body (underPrefix x i) = body i ∧ (underPrefix x i).lead = .index := by
  unfold underPrefix
  split <;> exact ⟨congrArg (· :: encode i) (lead_eq_xrCode x), rfl, rfl, rfl⟩

theorem wellFormedWith_underPrefix {u : List (XR × Byte)} {i : Instr} (x : XR) (hl : i.lead = .ed ∨ i.lead = .index)
    (hw : i.wellFormedWith u = true) : (underPrefix x i).wellFormedWith u = true := by
  unfold underPrefix
  obtain hl | hl := hl
  · obtain ⟨hf, -⟩ := Bool.and_eq_true_iff.mp hw
    obtain ⟨op, operands, he, -⟩ := edRow_of_lead hl hf
    have hs : (Instr.prefixXrED x i).slotOk u = !undocHit u (x.lead :: 0xED :: op :: operands) :=
      congrArg (fun l => !undocHit u (x.lead :: l)) he
    rw [if_pos hl, Instr.wellFormedWith, hs, undocHit_lead, Instr.fieldsOk, hl, hf]
    simp
  · rw [if_neg (by rw [hl]; decide), wellFormedWith_prefixXrXr u x hl, hw]

/-- A run of index prefixes in front: one byte and one opcode fetch each, and the same instruction; well-formed
with it (30_encoding R113, R114). -/
theorem underRun_spec {u : List (XR × Byte)} {i : Instr} (hl : i.lead = .ed ∨ i.lead = .index)
    (hw : i.wellFormedWith u = true) (run : List XR) :
    encode (underRun run i) = run.map xrCode ++ encode i ∧ (underRun run i).m1 = i.m1 + run.length ∧
      body (underRun run i) = body i ∧ ((underRun run i).lead = .ed ∨ (underRun run i).lead = .index) ∧
      (underRun run i).wellFormedWith u = true := by
  induction run with
  | nil => exact ⟨rfl, rfl, rfl, hl, hw⟩
  | cons x run ih =>
    obtain ⟨ihe, ihm, ihb, ihl, ihw⟩ := ih
    obtain ⟨he, hm, hb, hx⟩ := underPrefix_spec x (underRun run i)
    exact ⟨he.trans (congrArg (xrCode x :: ·) ihe), hm.trans (congrArg (· + 1) ihm), hb.trans ihb, .inr hx,
      wellFormedWith_underPrefix x ihl ihw⟩

/-- The fault that a row raises. -/
def raisedBy : Instr → Option FaultKind
  | .prefixED _ => some .invalidOpcode
  | .prefixDD _ => some .unimplementedUndocumented
  | .prefixFD _ => some .unimplementedUndocumented
  | _ => none

/-- A row that raises a fault raises it under ignored prefixes too: there are no T-states for them to add to
(60_exceptions R441, R442). -/
theorem runRow_of_raisedBy {i : Instr} {kind : FaultKind} (h : raisedBy (body i) = some kind) (s : State) :
    runRow i s = raiseFault kind s := by
  induction i with
  | prefixXrXr x j ih | prefixXrED x j ih | prefixXrPass x j ih => exact congrArg (Result.addT · 4) (ih h)
  | prefixED | prefixDD | prefixFD =>
    cases h
    rfl
  | _ => cases h

theorem bytesFrom_eq_map (s : State) (n : Nat) (a : Word) :
    s.bytesFrom n 0 a = (List.range n).map fun k => s.codeAt k (a + BitVec.ofNat 16 k) := by
  refine List.ext_getElem? fun k => ?_
  by_cases hk : k < n
  · rw [getElem?_bytesFrom s n 0 a k hk, Nat.zero_add]
    simp [hk]
  · rw [List.getElem?_eq_none (by rw [length_bytesFrom]; omega), List.getElem?_eq_none (by simpa using hk)]

theorem mapIdx_map_range {α β : Type} (f : Nat → α → β) (g : Nat → α) (n : Nat) :
    ((List.range n).map g).mapIdx f = (List.range n).map fun k => f k (g k) := by
  refine List.ext_getElem? fun k => ?_
  by_cases hk : k < n <;> simp [hk]

/-- A fault raised after a fetch of opcode bytes alone leaves the state at the start of the step, but for the
record of these bytes and their transactions (60_exceptions R441, R442, log entry 14). -/
theorem settleFault_raise_fetched {s : State} {i : Instr} {bytes : List Byte} (kind : FaultKind)
    (hm : i.m1 = i.size) (hb : s.bytesFrom i.size 0 s.pc = bytes) :
    settleFault s (raiseFault kind (s.beginStep.tickEi.fetched i)) = .next (s.faultedBy kind bytes) := by
  have hsize : 1 ≤ i.size := hm ▸ (m1_bounds i).1
  have hevent (k : Nat) (hk : k ∈ List.range i.size) : s.beginStep.tickEi.fetchEvent i.m1 k =
      { kind := .m1, addr := s.pc + BitVec.ofNat 16 k, data := s.codeAt k (s.pc + BitVec.ofNat 16 k) } := by
    rw [State.fetchEvent, if_pos (hm ▸ List.mem_range.mp hk)]
    rfl
  have hbus : (s.beginStep.tickEi.fetched i).bus = bytes.mapIdx fun k v =>
      { kind := .m1, addr := s.pc + BitVec.ofNat 16 k, data := v } := by
    rw [fetched_bus, List.map_congr_left hevent, ← hb, bytesFrom_eq_map, mapIdx_map_range]
    rfl
  have hops : (s.beginStep.tickEi.fetched i).fetchedOpcodes = bytes := by
    rw [State.fetchedOpcodes, hbus, ← hb, bytesFrom_eq_map, mapIdx_map_range, List.filterMap_map]
    exact List.filterMap_eq_map ▸ rfl
  have hfirst : (s.beginStep.tickEi.fetched i).firstFetch = s.pc := by
    obtain ⟨n, hn⟩ := Nat.exists_eq_add_of_le' hsize
    rw [State.firstFetch, hbus, ← hb, hn, bytesFrom_succ, List.mapIdx_cons]
    exact BitVec.add_zero _
  have hdraws : (s.beginStep.tickEi.fetched i).draws = s.draws + bytes.length := by
    rw [fetched_eq, ← hb, length_bytesFrom]
    rfl
  rw [raiseFault, settleFault_raise, hops, hfirst, hbus, hdraws]
  rfl

/-- A step that fetches an instruction of two opcode bytes under a run of index prefixes, which raises a fault,
records all of them (60_exceptions R441, R442). -/
theorem step_of_raisedBy {s : State} {run : List XR} {i : Instr} {bytes : List Byte} {kind : FaultKind}
    (hf : s.fault = none) (hn : s.nmiPending = false) (ha : s.acceptsInt = false) (hh : s.halted = false)
    (hl : i.lead = .ed ∨ i.lead = .index) (hw : i.wellFormedWith s.params.undocUnimpl = true)
    (he : Encoded i bytes bytes.length) (hr : raisedBy (body i) = some kind)
    (hb : s.bytesFrom (run.length + bytes.length) 0 s.pc = run.map xrCode ++ bytes) :
    step s = .next (s.faultedBy kind (run.map xrCode ++ bytes)) := by
  obtain ⟨hie, him⟩ := he
  obtain ⟨hje, hjm, hjb, -, hjw⟩ := underRun_spec hl hw run
  rw [hie] at hje
  have hsize : (underRun run i).size = run.length + bytes.length := by simp [Instr.size, hje]
  have hd : decodeWith s.params.undocUnimpl (s.bytesFrom (run.length + bytes.length) 0 s.pc) =
      .ok (underRun run i, []) := by
    rw [hb, ← hje, ← List.append_nil (encode _)]
    exact decodeOfEncodeIsIdentity _ _ [] hjw
  rw [step_of_instr hf hn ha hh (instrAt_of_decode hd), exec_eq_runRow (by rw [fetched_params]; exact hjw),
    runRow_of_raisedBy (hjb ▸ hr)]
  exact settleFault_raise_fetched kind (by rw [hjm, him, hsize, Nat.add_comm]) (hsize ▸ hb)

/-- The row of an unpopulated ED entry is well-formed (30_encoding R108). -/
theorem wellFormedWith_prefixED (u : List (XR × Byte)) {op : Byte} (h : edPopulated op = false) :
    (Instr.prefixED op).wellFormedWith u = true :=
  Bool.and_eq_true_iff.mpr ⟨congrArg (!·) h, rfl⟩

/-- Settles O12: the bytes are the row of 0xED under its run of prefixes, which raises InvalidOpcode. -/
theorem unpopulatedEdIsInvalidOpcode : Obligations.UnpopulatedEdIsInvalidOpcode := by
  intro s run op hf hn ha hh hb hop
  exact step_of_raisedBy (i := .prefixED op) hf hn ha hh (.inl rfl) (wellFormedWith_prefixED _ hop)
    ⟨rfl, rfl⟩ rfl hb

/-- A member of UNDOC_UNIMPL is selected by its bytes, unless the loop looks at the second one first
(30_encoding R105, R116). -/
theorem undocHit_of_mem {u : List (XR × Byte)} {x : XR} {op : Byte} (hm : (x, op) ∈ u) (hcb : op ≠ 0xCB)
    (hdd : op ≠ 0xDD) (hed : op ≠ 0xED) (hfd : op ≠ 0xFD) : undocHit u [x.lead, op] = true := by
  simpa [undocHit_lead, hm] using ⟨hcb, hdd, hed, hfd⟩

/-- The row of a member of UNDOC_UNIMPL is well-formed (30_encoding R105, R116). -/
theorem wellFormedWith_undocRow {u : List (XR × Byte)} {x : XR} {op : Byte} (hm : (x, op) ∈ u) (hcb : op ≠ 0xCB)
    (hdd : op ≠ 0xDD) (hed : op ≠ 0xED) (hfd : op ≠ 0xFD) : (undocRow x op).wellFormedWith u = true := by
  have hu := undocHit_of_mem hm hcb hdd hed hfd
  cases x <;> exact hu

theorem encoded_undocRow (x : XR) (op : Byte) : Encoded (undocRow x op) [xrCode x, op] 2 := by
  cases x <;> exact ⟨rfl, rfl⟩

/-- A row that begins with no index prefix is its own body. -/
theorem body_eq_self {i : Instr} (h : i.lead ≠ .index) : body i = i := by
  cases i with
  | prefixXrXr | prefixXrED | prefixXrPass => exact absurd rfl h
  | _ => rfl

/-- Where UNDOC_UNIMPL is empty, no well-formed instruction raises UnimplementedUndocumented (30_encoding R116). -/
theorem raisedBy_ne_of_wellFormedWith_nil {i : Instr} (h : i.wellFormedWith [] = true) :
    raisedBy (body i) ≠ some .unimplementedUndocumented := by
  have hplain (j : Instr) (hj : j.lead ≠ .index) : raisedBy (body j) ≠ some .unimplementedUndocumented := by
    rw [body_eq_self hj]
    cases j with
    | prefixDD | prefixFD => exact absurd rfl hj
    | _ => exact fun h => by cases h
  obtain ⟨hf, hs⟩ := Bool.and_eq_true_iff.mp h
  clear h
  induction i with
  | prefixDD | prefixFD => cases hs
  | prefixXrXr x j ih =>
    obtain ⟨-, hf⟩ := Bool.and_eq_true_iff.mp hf
    exact ih hf hs
  | prefixXrED x j ih =>
    obtain ⟨hl, -⟩ := Bool.and_eq_true_iff.mp hf
    exact hplain j (by rw [eq_of_beq hl]; decide)
  | prefixXrPass x j ih =>
    obtain ⟨hls, -⟩ := Bool.and_eq_true_iff.mp hf
    obtain ⟨hl, -⟩ := Bool.and_eq_true_iff.mp hls
    exact hplain j (by rw [eq_of_beq hl]; decide)
  | _ => exact fun h => by cases h

/-- Settles O13: the bytes are the row of a member under its run of prefixes, which raises
UnimplementedUndocumented; the empty set makes no such row well-formed. -/
theorem undocUnimplRaisesItsFault : Obligations.UndocUnimplRaisesItsFault := by
  refine ⟨fun u run x op rest hm hcb hdd hed hfd => ?decodes,
    fun s run x op hf hn ha hh hb hm hcb hdd hed hfd => ?raises, fun bytes rest i op hd => ?empty⟩
  case decodes =>
    have hl : (undocRow x op).lead = .index := by cases x <;> rfl
    obtain ⟨he, -, hb, -, hw⟩ := underRun_spec (.inr hl) (wellFormedWith_undocRow hm hcb hdd hed hfd) run
    rw [(encoded_undocRow x op).1] at he
    refine ⟨underRun run (undocRow x op), ?_, hb.trans (by cases x <;> rfl), fun h => ?_⟩
    · rw [← decodeOfEncodeIsIdentity u _ rest hw, he, List.append_assoc]
      rfl
    · subst h
      cases x <;> rfl
  case raises =>
    have hl : (undocRow x op).lead = .index := by cases x <;> rfl
    exact step_of_raisedBy hf hn ha hh (.inr hl) (wellFormedWith_undocRow hm hcb hdd hed hfd)
      (encoded_undocRow x op) (by cases x <;> rfl) hb
  case empty =>
    obtain ⟨hw, -⟩ := encodeOfDecodeIsIdentity [] bytes i rest hd
    have h := raisedBy_ne_of_wellFormedWith_nil hw
    exact ⟨fun hb => h (hb ▸ rfl), fun hb => h (hb ▸ rfl)⟩

end Sys2Proof.Machine
end

section
/-! PROOFS. Interrupt acceptance and halted steps (60_exceptions R424 to R434). -/

namespace Sys2Proof.Machine

/-- The address that an acceptance pushes: the one after a HALT byte, or PC (60_exceptions R430, R432). -/
def State.savedPc (s : State) : Word := if s.halted then s.pc + 1 else s.pc

/-- What both acceptances begin with: the halted bit, R, PC past a HALT byte, and the push of PC
(60_exceptions R430, R432). -/
theorem enterInterrupt_eq (s : State) : s.enterInterrupt = { s with
    halted := false, r := s.rInc.r, pc := s.savedPc, sp := s.sp - 2, mem := s.enterInterrupt.mem
    bus := s.bus ++ [mw (s.sp - 1) (hiByte s.savedPc), mw (s.sp - 2) (loByte s.savedPc)] } := by
  cases h : s.halted <;> simp only [State.enterInterrupt, State.savedPc, h] <;> rw [push_eq_sub_two] <;>
    simp [State.rInc, h]

/-- An acceptance writes the bytes of the address it pushes, the high byte first. -/
theorem wrote_enterInterrupt {s t : State} (h : t.mem = s.enterInterrupt.mem) :
    Wrote s t [(s.sp - 1, hiByte s.savedPc), (s.sp - 2, loByte s.savedPc)] := by
  have hpush : Wrote s s.enterInterrupt [(s.sp - 1, hiByte s.savedPc), (s.sp - 2, loByte s.savedPc)] := by
    cases hh : s.halted <;> simp only [State.enterInterrupt, State.savedPc, hh] <;>
      exact fun a => wrote_push _ _ a
  exact fun a => (cell_congr h a).trans (hpush a)

/-- Settles O7: the acceptance of an NMI is its beginning, IFF1 cleared and PC set. -/
theorem nmiAcceptance : Obligations.NmiAcceptance := by
  intro s hf hn
  have hmem (u : State) : ({ u with iff1 := false, pc := 0x0066 }.took 11).mem = u.mem := rfl
  refine ⟨_, step_of_nmi hf hn, ?_, ?_⟩
  · unfold State.acceptNmi
    rw [enterInterrupt_eq]
    rfl
  · exact wrote_enterInterrupt (s := { s.beginStep with nmiPending := false }) (hmem _)

/-- The acceptance of INT in modes 0 and 1 (60_exceptions R432, R433). -/
theorem acceptInt_of_ne_im2 {s : State} (v : Byte) (h : s.im ≠ .im2) : s.acceptInt v =
    { s.enterInterrupt with iff1 := false, iff2 := false, pc := 0x0038, tstates := some 13 } := by
  have him : s.enterInterrupt.im = s.im := by rw [enterInterrupt_eq]
  unfold State.acceptInt
  simp only [him]
  cases him' : s.im with
  | im0 | im1 => rfl
  | im2 => exact absurd him' h

/-- The acceptance of INT in mode 2: the vector is read after the push (60_exceptions R432, R434). -/
theorem acceptInt_of_im2 {s : State} (v : Byte) (h : s.im = .im2) : s.acceptInt v =
    State.vectorIm2 { s.enterInterrupt with iff1 := false, iff2 := false } v := by
  have him : s.enterInterrupt.im = .im2 := by rw [enterInterrupt_eq]; exact h
  unfold State.acceptInt
  simp only [him]

/-- The vectored jump of mode 2: one draw, the word at I and the bus byte (60_exceptions R434). -/
theorem vectorIm2_eq (s : State) (v : Byte) : s.vectorIm2 v = { s with
    mem := (s.vectorIm2 v).mem, pc := (s.vectorIm2 v).wordAt (mkWord s.i v), draws := s.draws + 1, tstates := some 19
    bus := s.bus ++ [mr (mkWord s.i v) ((s.vectorIm2 v).byteAt (mkWord s.i v)),
      mr (mkWord s.i v + 1) ((s.vectorIm2 v).byteAt (mkWord s.i v + 1))] } := by
  unfold State.vectorIm2
  dsimp only
  rw [readWordAt_eq]
  rfl

/-- Settles O8: the acceptance of INT is its beginning, IFF1 and IFF2 cleared, and the jump of the mode. -/
theorem intAcceptance : Obligations.IntAcceptance := by
  intro s hf hn hl hi he
  have ha : s.acceptsInt = true := by simp [State.acceptsInt, hl, hi, he]
  refine ⟨_, step_of_int hf hn ha, ?_⟩
  by_cases him : s.im = .im2
  · rw [acceptInt_of_im2 (s := s.beginStep) s.busByte him]
    have hmem (u : State) : (u.vectorIm2 s.busByte).mem = u.mem := rfl
    refine ⟨?_, wrote_enterInterrupt (s := s.beginStep) (hmem _)⟩
    simp only [him, if_true]
    refine (vectorIm2_eq _ _).trans ?_
    generalize State.vectorIm2 _ _ = t
    rw [enterInterrupt_eq]
    congr 1
  · rw [acceptInt_of_ne_im2 (s := s.beginStep) s.busByte him]
    refine ⟨?_, wrote_enterInterrupt (s := s.beginStep) rfl⟩
    rw [enterInterrupt_eq]
    simp only [him, if_false]
    rfl

/-- A halted step: R counts and ei_delay counts down, with no transaction (60_exceptions R425, R426). -/
theorem tickedHaltedStep_eq (s : State) : s.beginStep.tickEi.haltedStep =
    { s with r := s.rInc.r, eiDelay := s.eiDelay - 1, bus := [], tstates := some 4 } := by
  simp [State.haltedStep, State.took, State.tickEi, State.beginStep, State.rInc]

theorem quiescent_congr {s t : State} (hf : t.fault = s.fault) (hh : t.halted = s.halted) (hi : t.iff1 = s.iff1)
    (hn : t.nmiPending = s.nmiPending) (hs : Quiescent s) : Quiescent t := by
  unfold Quiescent
  rwa [hf, hh, hi, hn]

/-- Settles O9: a quiescent state is halted and accepts nothing. -/
theorem haltedStepCountsROnly : Obligations.HaltedStepCountsROnly := by
  have hstep (s : State) (hf : s.fault = none) (hn : s.nmiPending = false) (ha : s.acceptsInt = false)
      (hh : s.halted = true) :
      step s = .next { s with r := s.rInc.r, eiDelay := s.eiDelay - 1, bus := [], tstates := some 4 } :=
    (step_of_halted hf hn ha hh).trans (congrArg _ (tickedHaltedStep_eq s))
  refine ⟨hstep, fun s hs he => ?_⟩
  obtain ⟨hf, hh, hi, hn⟩ := hs
  refine ⟨_, hstep s hf hn (by simp [State.acceptsInt, hi]) hh, ⟨hf, hh, hi, hn⟩, ?_⟩
  rw [he]

/-- Settles O11. -/
theorem faultedStateHasNoStep : Obligations.FaultedStateHasNoStep := by
  intro s h
  obtain ⟨r, hr⟩ := Option.isSome_iff_exists.mp h
  exact step_of_fault hr

end Sys2Proof.Machine
end

section
/-! PROOFS. Reset, power-on and the host's actions (70_reset_and_hazards R470, R472; 60_exceptions R423, R450;
10_state R57, R58). -/

namespace Sys2Proof.Machine

/-- Settles O15. -/
theorem powerOnStateValues : Obligations.PowerOnStateValues := ⟨rfl, rfl, rfl, rfl, rfl, rfl, rfl, rfl, rfl, rfl⟩

/-- Settles O16: power-on writes the registers over what Reset answers. -/
theorem resetAndPowerOn : Obligations.ResetAndPowerOn := by
  refine ⟨fun s => rfl, fun s t p h => ?_, fun p regs => ⟨rfl, rfl⟩⟩
  cases h
  rfl

/-- A write of IM is refused exactly at 3 (10_state R48, log entry 16). -/
theorem writeIm_cases (s : State) (v : BitVec 2) :
    (v = 3 ∧ s.writeIm v = .refused .illegalHostWrite) ∨
      (v ≠ 3 ∧ ∃ im, s.writeIm v = .next { s with im := im }) := by
  obtain ⟨k⟩ := v
  fin_cases k
  · exact .inr ⟨by decide, _, rfl⟩
  · exact .inr ⟨by decide, _, rfl⟩
  · exact .inr ⟨by decide, _, rfl⟩
  · exact .inl ⟨rfl, rfl⟩

/-- A write of ei_delay is refused exactly above 1 (60_exceptions R450). -/
theorem writeEiDelay_cases (s : State) (v : Nat) :
    (1 < v ∧ s.writeEiDelay v = .refused .illegalHostWrite) ∨
      (v ≤ 1 ∧ s.writeEiDelay v = .next { s with eiDelay := v }) := by
  unfold State.writeEiDelay
  split
  · exact .inr ⟨‹_›, rfl⟩
  · exact .inl ⟨Nat.lt_of_not_le ‹_›, rfl⟩

/-- A host action that is carried out keeps the parameters, and memory unless it writes a byte of it. -/
theorem hostAct_keeps {act : HostAction} {s t : State} (h : hostAct act s = .next t) :
    ((∀ a v, act ≠ .loadByte a v) → t.mem = s.mem) ∧ t.params = s.params := by
  cases act with
  | writeIm v =>
    obtain ⟨-, hw⟩ | ⟨-, im, hw⟩ := writeIm_cases s v
    · cases hw.symm.trans h
    · cases hw.symm.trans h
      exact ⟨fun _ => rfl, rfl⟩
  | writeEiDelay v =>
    obtain ⟨-, hw⟩ | ⟨-, hw⟩ := writeEiDelay_cases s v
    · cases hw.symm.trans h
    · cases hw.symm.trans h
      exact ⟨fun _ => rfl, rfl⟩
  | loadByte a v =>
    cases h
    exact ⟨fun hne => absurd rfl (hne a v), rfl⟩
  | write8 reg | write16 reg | writeBit reg =>
    cases h
    cases reg <;> exact ⟨fun _ => rfl, rfl⟩
  | _ =>
    cases h
    exact ⟨fun _ => rfl, rfl⟩

/-- Settles O17: of the accessors, those of IM and ei_delay alone refuse. -/
theorem hostWritesAreLegal : Obligations.HostWritesAreLegal := by
  refine ⟨fun act s => ?refuses, fun s t h => ?nmi, fun act s t h => hostAct_keeps h⟩
  case refuses =>
    cases act with
    | writeIm v =>
      obtain ⟨rfl, hw⟩ | ⟨hv, im, hw⟩ := writeIm_cases s v
      · exact iff_of_true hw (.inl rfl)
      · refine iff_of_false (fun h => nomatch hw.symm.trans h) ?_
        rintro (h | ⟨v', h, -⟩)
        · exact hv (HostAction.writeIm.inj h)
        · cases h
    | writeEiDelay v =>
      obtain ⟨hv, hw⟩ | ⟨hv, hw⟩ := writeEiDelay_cases s v
      · exact iff_of_true hw (.inr ⟨v, rfl, hv⟩)
      · refine iff_of_false (fun h => nomatch hw.symm.trans h) ?_
        rintro (h | ⟨v', h, hv'⟩)
        · cases h
        · cases h
          exact absurd hv' (Nat.not_lt_of_le hv)
    | _ =>
      refine iff_of_false (fun h => nomatch h) ?_
      rintro (h | ⟨v', h, -⟩) <;> cases h
  case nmi =>
    cases h
    exact ⟨rfl, rfl⟩

/-- The machine is launched not halted, with IFF1 clear and ei_delay 0 (10_state R58; 70_reset_and_hazards R472). -/
theorem launch_invariants (p : Params) (regs : PowerOnRegs) :
    Inv (State.launch p regs) ∧ HaltInv (State.launch p regs) :=
  ⟨⟨rfl, Nat.zero_le 1, fun _ => rfl, fun h => nomatch h⟩, fun _ h => nomatch h⟩

/-- Settles O23. -/
theorem resetMeetsInvariants : Obligations.ResetMeetsInvariants :=
  ⟨⟨⟨rfl, Nat.zero_le 1, fun _ => rfl, fun h => nomatch h⟩, fun _ h => nomatch h⟩, launch_invariants⟩

end Sys2Proof.Machine
end

section
/-! PROOFS. The views of the registers (10_state R33, R34; 30_encoding R102). -/

namespace Sys2Proof.Machine

/-- Settles O25, view by view: a pair is its two fields, an index register its two bytes. -/
theorem registerViews : Obligations.RegisterViews := by
  intro s v w
  refine ⟨⟨rfl, rfl, rfl, rfl, rfl, rfl, rfl⟩, ⟨rfl, rfl, rfl, rfl, rfl, rfl, rfl⟩, ⟨rfl, rfl, rfl, rfl⟩,
    ⟨rfl, rfl, rfl, rfl⟩, ⟨rfl, rfl, rfl, rfl⟩, ⟨rfl, rfl, rfl, rfl⟩, ⟨rfl, rfl, rfl, rfl⟩, ⟨rfl, rfl, rfl, rfl⟩,
    fun x => ⟨rfl, rfl, rfl, rfl⟩, fun x => ⟨rfl, rfl, rfl, rfl⟩⟩

end Sys2Proof.Machine
end

section
/-! PROOFS. The decoder on bytes written out, and the opcodes that it has an instruction for (30_encoding R105 to
R118). -/

namespace Sys2Proof.Machine

/-- Settles O1, sequence by sequence. -/
theorem decodeReadsSpecWords : Obligations.DecodeReadsSpecWords :=
  ⟨rfl, rfl, rfl, rfl, rfl, rfl, rfl, rfl, rfl, rfl, rfl⟩

/-- The opcodes that the ED table lists no entry for (30_encoding R108). -/
theorem edPopulated_eq_false_iff : ∀ op : Byte, edPopulated op = false ↔
    (op < 0x40 ∨ op = 0x77 ∨ op = 0x7F ∨ (0x80 ≤ op ∧ op ≤ 0x9F) ∨ (0xA4 ≤ op ∧ op ≤ 0xA7) ∨
      (0xAC ≤ op ∧ op ≤ 0xAF) ∨ (0xB4 ≤ op ∧ op ≤ 0xB7) ∨ 0xBC ≤ op) := by
  decide +kernel

/-- An ED opcode decodes to the row of 0xED itself exactly where the ED table lists no entry (30_encoding R108). -/
theorem decode_ed_iff (op a b : Byte) : (∃ rest, decode [0xED, op, a, b] = .ok (.prefixED op, rest)) ↔
    edPopulated op = false := by
  constructor
  · rintro ⟨rest, h⟩
    obtain ⟨hw, -⟩ := encodeOfDecodeIsIdentity _ _ _ _ h
    obtain ⟨hf, -⟩ := Bool.and_eq_true_iff.mp hw
    simpa [Instr.fieldsOk] using hf
  · exact fun h => ⟨[a, b], decodeWith_ed _ (decodeED_unpopulated h [a, b])⟩

/-- Settles O4: an opcode that is no index prefix decodes where three bytes follow it. -/
theorem encodingSpaceIsTotal : Obligations.EncodingSpaceIsTotal := by
  have hok {l : List Byte} {k : Nat} {op : Byte} (hk : l[k]? = some op) (hl : k + 4 ≤ l.length) (hdd : op ≠ 0xDD)
      (hfd : op ≠ 0xFD) : (decode l).isOk = true := by
    obtain ⟨r, hr⟩ := decodeWith_isOk Config.undocUnimpl hk (by simpa [isIndexPrefix] using ⟨hdd, hfd⟩) hl
    rw [decode, hr]
    rfl
  refine ⟨fun op a b c hdd hfd => ?alone, fun x op a b c hdd hfd => ?prefixed, fun op a b => ?ed⟩
  case alone => exact hok (k := 0) rfl (Nat.le_refl _) hdd hfd
  case prefixed => exact hok (k := 1) rfl (Nat.le_refl _) hdd hfd
  case ed => rw [decode_ed_iff, edPopulated_eq_false_iff]

end Sys2Proof.Machine
end

section
/-! PROOFS. Memory and the stack (20_memory R74 to R81). -/

namespace Sys2Proof.Machine

theorem cell_writeAt (s : State) (a b : Word) (v : Byte) :
    (s.writeAt a v).cell b = if b = a then v else s.cell b := cell_of_memSet rfl b

/-- A word is its two bytes, written low byte first, the high byte at the next address (20_memory R77). -/
theorem cell_writeWordAt (s : State) (a w : Word) :
    (s.writeWordAt a w).cell a = loByte w ∧ (s.writeWordAt a w).cell (a + 1) = hiByte w := by
  have hne : a ≠ a + 1 := by simp
  have hlo : (s.writeAt a (loByte w)).cell a = loByte w := by rw [cell_writeAt, if_pos rfl]
  exact ⟨(cell_writeAt ..).trans (by rw [if_neg hne, hlo]), (cell_writeAt ..).trans (by rw [if_pos rfl])⟩

/-- Settles O18: the RAM device answers what addresses hold. -/
theorem memoryReadsBackWrites : Obligations.MemoryReadsBackWrites := by
  refine ⟨cell_writeAt, fun s hram => ?_⟩
  have hwrite (a : Word) (v : Byte) : (s.writeAt a v).params.memDevice = .ram := hram
  have hword (a w : Word) : (s.writeWordAt a w).params.memDevice = .ram := hram
  refine ⟨fun a => ⟨byteAt_of_ram hram a, fun k => codeAt_of_ram hram k a⟩, fun a b v => ?_, fun a w => ?_,
    fun w v => ⟨?_, ?_⟩⟩
  · rw [byteAt_of_ram (hwrite a v), byteAt_of_ram hram, cell_writeAt]
  · obtain ⟨hlo, hhi⟩ := cell_writeWordAt s a w
    rw [State.wordAt, byteAt_of_ram (hword a w), byteAt_of_ram (hword a w), hlo, hhi]
    exact ⟨mkWord_hiByte_loByte w, rfl, rfl⟩
  · obtain ⟨-, hhi⟩ := cell_writeWordAt s 0xFFFF w
    rw [byteAt_of_ram (hword 0xFFFF w)]
    exact hhi
  · rw [State.wordAt, byteAt_of_ram (hwrite 0 v), byteAt_of_ram (hwrite 0 v), byteAt_of_ram hram, cell_writeAt,
      cell_writeAt]
    rfl

/-- Settles O19: with the RAM device the popped bytes are those that the push wrote. -/
theorem pushThenPop : Obligations.PushThenPop := by
  refine ⟨fun s v => ⟨push_eq_sub_two s v, wrote_push s v⟩, pop_eq_add_two, fun s v hram => ?_, fun s v => ?_⟩
  · have hsp : (s.push v).sp = s.sp - 2 := by rw [push_eq_sub_two]
    have hp : (s.push v).params.memDevice = .ram := by rw [push_eq_sub_two]; exact hram
    have hne : s.sp - 2 ≠ s.sp - 1 := by simp
    have hhi : s.sp - 2 + 1 = s.sp - 1 :=
      (congrArg (· + 1) (sub_one_sub_one s.sp).symm).trans (BitVec.sub_add_cancel ..)
    have hw := wrote_push s v
    rw [pop_eq, hsp, byteAt_of_ram hp, byteAt_of_ram hp, hw, hw, hhi]
    simpa [lastWrite, hne] using mkWord_hiByte_loByte v
  · rw [pop_eq_add_two, push_eq_sub_two]
    exact BitVec.sub_add_cancel ..

end Sys2Proof.Machine
end

section
/-! PROOFS. The end of a run (60_exceptions R450, R451). -/

namespace Sys2Proof.Machine

theorem noNmi_append (moves more : List Move) : noNmi (moves ++ more) = (noNmi moves && noNmi more) :=
  List.all_append

/-- Moves that assert no NMI make no difference to whether a state is the end. -/
theorem atEnd_append (s : State) (moves : List Move) {more : List Move} (h : noNmi more = true) :
    s.atEnd (moves ++ more) = s.atEnd moves := by
  unfold State.atEnd
  split <;> simp [noNmi_append, h]

/-- An end is a faulted or a quiescent state. -/
theorem ended_of_atEnd {s : State} {moves : List Move} (h : s.atEnd moves = true) : Faulted s ∨ Quiescent s := by
  obtain ⟨hs, -, -⟩ | ⟨-, hs⟩ | ⟨-, hs⟩ := ending_cases s
  · rw [State.atEnd, hs] at h
    cases h
  · exact .inl hs
  · exact .inr hs

/-- A state that is neither faulted nor quiescent is passed over. -/
theorem runEnd_cons_of_not_ended {s t : State} {m : Move} (rest : List Move)
    (hs : s.atEnd (m :: rest) = false) (ht : move m s = .next t) : runEnd (m :: rest) s = runEnd rest t := by
  rw [runEnd_cons, if_neg (Bool.eq_false_iff.mp hs), ht]

/-- A run that reaches an end is there already, or its first move answers a next state. -/
theorem runEnd_cons_cases {m : Move} {rest : List Move} {s t : State} (h : runEnd (m :: rest) s = some t) :
    (s.atEnd (m :: rest) = true ∧ t = s) ∨
      (s.atEnd (m :: rest) = false ∧ ∃ u, move m s = .next u ∧ runEnd rest u = some t) := by
  rw [runEnd_cons] at h
  split at h
  · exact .inl ⟨‹_›, (Option.some.inj h).symm⟩
  · refine .inr ⟨Bool.eq_false_iff.mpr ‹_›, ?_⟩
    split at h
    · exact ⟨_, ‹_›, h⟩
    · cases h
    · cases h

theorem runEnd_nil {s t : State} (h : runEnd [] s = some t) : s.atEnd [] = true ∧ t = s := by
  unfold runEnd at h
  split at h
  · exact ⟨‹_›, (Option.some.inj h).symm⟩
  · cases h

theorem ended_of_runEnd {moves : List Move} {s t : State} (h : runEnd moves s = some t) :
    Faulted t ∨ Quiescent t := by
  induction moves generalizing s with
  | nil =>
    obtain ⟨hs, rfl⟩ := runEnd_nil h
    exact ended_of_atEnd hs
  | cons m rest ih =>
    obtain ⟨hs, rfl⟩ | ⟨-, u, -, hu⟩ := runEnd_cons_cases h
    · exact ended_of_atEnd hs
    · exact ih hu

theorem runEnd_append {moves more : List Move} {s t : State} (h : runEnd moves s = some t)
    (hm : noNmi more = true) : runEnd (moves ++ more) s = some t := by
  induction moves generalizing s with
  | nil =>
    obtain ⟨hs, rfl⟩ := runEnd_nil h
    exact runEnd_of_atEnd ((atEnd_append t [] hm).trans hs)
  | cons m rest ih =>
    obtain ⟨hs, rfl⟩ | ⟨hs, u, hu, ht⟩ := runEnd_cons_cases h
    · exact runEnd_of_atEnd ((atEnd_append t (m :: rest) hm).trans hs)
    · exact (runEnd_cons_of_not_ended _ ((atEnd_append s (m :: rest) hm).trans hs) hu).trans (ih ht)

/-- A step, or a change of the INT level or of the bus byte. -/
def Move.Quiet (m : Move) : Prop := m = .step ∨ (∃ v, m = .host (.setInt v)) ∨ ∃ v, m = .host (.setBusByte v)

theorem noNmi_of_quiet {moves : List Move} (h : ∀ m ∈ moves, m.Quiet) : noNmi moves = true := by
  refine List.all_eq_true.mpr fun m hm => ?_
  obtain rfl | ⟨v, rfl⟩ | ⟨v, rfl⟩ := h m hm <;> simp

/-- A quiet move from a quiescent state with ei_delay 0 leaves such a state with the same observation. -/
theorem move_of_quiescent {m : Move} {s : State} (hm : m.Quiet) (hs : Quiescent s) (he : s.eiDelay = 0) :
    ∃ t, move m s = .next t ∧ Quiescent t ∧ t.eiDelay = 0 ∧ t.observation = s.observation := by
  obtain rfl | ⟨v, rfl⟩ | ⟨v, rfl⟩ := hm
  · obtain ⟨t, hstep, ht, heq⟩ := haltedStepCountsROnly.2 s hs he
    refine ⟨t, hstep, ht, by rw [heq]; exact he, ?_⟩
    rw [observation_of_quiescent ht, observation_of_quiescent hs, heq]
  · have ht : Quiescent { s with intLine := v } := hs
    exact ⟨_, rfl, ht, he, by rw [observation_of_quiescent ht, observation_of_quiescent hs]⟩
  · have ht : Quiescent { s with busByte := v } := hs
    exact ⟨_, rfl, ht, he, by rw [observation_of_quiescent ht, observation_of_quiescent hs]⟩

theorem runMoves_of_quiescent {moves : List Move} {s : State} (hm : ∀ m ∈ moves, m.Quiet) (hs : Quiescent s)
    (he : s.eiDelay = 0) : ∃ t, runMoves moves s = some t ∧ Quiescent t ∧ t.observation = s.observation := by
  induction moves generalizing s with
  | nil => exact ⟨s, rfl, hs, rfl⟩
  | cons m rest ih =>
    obtain ⟨hm, hrest⟩ := List.forall_mem_cons.mp hm
    obtain ⟨u, hu, hqu, heu, hou⟩ := move_of_quiescent hm hs he
    obtain ⟨t, ht, hqt, hot⟩ := ih hrest hqu heu
    refine ⟨t, ?_, hqt, hot.trans hou⟩
    rw [runMoves, hu]
    exact ht

/-- Settles O24. -/
theorem endOfRun : Obligations.EndOfRun := by
  refine ⟨fun moves s t => ended_of_runEnd, fun m rest s t hf hq ht => ?passed, fun s hf hi => ?enabled,
    fun moves more s t => runEnd_append, fun moves s hs he hm => ?quiescent, fun moves s hs => ?faulted⟩
  case passed =>
    refine runEnd_cons_of_not_ended rest (Bool.eq_false_iff.mpr fun h => ?_) ht
    obtain h | h := ended_of_atEnd h
    · exact hf h
    · exact hq h
  case enabled =>
    obtain ⟨hend, hfault, hquiet⟩ | ⟨-, h⟩ | ⟨-, -, -, h, -⟩ := ending_cases s
    · exact ⟨hfault, hquiet, hend⟩
    · rw [Faulted, hf] at h
      cases h
    · cases hi.symm.trans h
  case quiescent =>
    obtain ⟨t, ht, hq, ho⟩ := runMoves_of_quiescent hm hs he
    refine ⟨runEnd_of_atEnd ?_, t, ht, hq, ?_, ho⟩
    · rw [State.atEnd, ending_of_quiescent hs]
      exact noNmi_of_quiet hm
    · rw [observation_of_quiescent hs]
      rfl
  case faulted =>
    have hend := ending_of_faulted hs
    refine ⟨runEnd_of_atEnd (by rw [State.atEnd, hend]), ?_, by rw [State.observation, hend]⟩
    rw [runMoves, show move .step s = _ from faultedStateHasNoStep s hs]

end Sys2Proof.Machine
end

section
/-! PROOFS. EX (SP),HL and EX (SP),XR (42_exchange_block R203, R204). -/

namespace Sys2Proof.Machine

/-- The exchange of the stack's top: two reads, then two writes, the high byte first (42_exchange_block R203). -/
theorem exchangeTop_eq (s : State) (v : Word) : s.exchangeTop v = { s with
    mem := (s.exchangeTop v).mem
    bus := s.bus ++ [mr s.sp (s.byteAt s.sp), mr (s.sp + 1) (s.byteAt (s.sp + 1)), mw (s.sp + 1) (hiByte v),
      mw s.sp (loByte v)] } := by
  simp [State.exchangeTop, readWordAt_eq, State.writeAt, mw]

theorem wrote_exchangeTop {s t : State} {v : Word} (h : t.mem = (s.exchangeTop v).mem) :
    Wrote s t [(s.sp + 1, hiByte v), (s.sp, loByte v)] := wrote_two h

/-- EX (SP),HL (42_exchange_block R203). -/
theorem execExSpHl_eq (s : State) : execExSpHl s = .next { s.exchangeTop s.hl with
    h := s.byteAt (s.sp + 1), l := s.byteAt s.sp, tstates := some 19 } := by
  rw [execExSpHl, State.wordAt, setHl_mkWord]
  rfl

/-- An index register is no memory and no transaction. -/
theorem setXr_withMemory (s : State) (m : List Host.Cell) (bus : List BusEvent) (x : XR) (v : Word) :
    State.setXr { s with mem := m, bus := bus } x v = { s.setXr x v with mem := m, bus := bus } := by
  cases x <;> rfl

/-- EX (SP),XR (42_exchange_block R204). -/
theorem execExSpXr_eq (x : XR) (s : State) : execExSpXr x s = .next { s.setXr x (s.wordAt s.sp) with
    mem := (s.exchangeTop (s.xr x)).mem, bus := (s.exchangeTop (s.xr x)).bus, tstates := some 23 } := by
  rw [execExSpXr]
  have h := exchangeTop_eq s (s.xr x)
  generalize (s.exchangeTop (s.xr x)).mem = m at h ⊢
  rw [h, setXr_withMemory]
  rfl

/-- Settles O38: the register takes the word at SP, and its old value is written there. -/
theorem exchangeStackTop : Obligations.ExchangeStackTop := by
  refine ⟨fun s => ?hl, fun x s => ?xr⟩
  case hl =>
    refine ⟨⟨rfl, rfl⟩, _, execExSpHl_eq s, ?_, ?_, wrote_exchangeTop rfl⟩ <;> rw [exchangeTop_eq]
    rfl
  case xr =>
    refine ⟨encoded_of_lead rfl rfl, _, execExSpXr_eq x s, ?_, ?_, wrote_exchangeTop rfl⟩
    · cases x <;> rfl
    · rw [exchangeTop_eq]
      rfl

end Sys2Proof.Machine
end

section
/-! PROOFS. CPL, NEG, SCF and CCF (44_general R261 to R265), and the control instructions (R266 to R270). -/

namespace Sys2Proof.Machine

/-- An opcode of the ED table with a field y in bits 5:3 (30_encoding R101). -/
theorem encoded_edField {i : Instr} {y z : BitVec 3} (h : encode i = [0xED, (0b01#2 ++ 0#3 ++ z) ||| field3 y])
    (hm : i.m1 = 2) : Encoded i [0xED, 0b01#2 ++ y ++ z] 2 :=
  ⟨by rw [h, or_field3], hm⟩

/-- A complement is an exclusive or with ones. -/
theorem xor_ones (v : Byte) : v ^^^ 0xFF = ~~~v := BitVec.xor_allOnes

/-- The flags of CPL: Y and X from the new A, S, Z, PV and C kept (44_general R261). -/
theorem flagsAre_cplFlags (a f : Byte) : FlagsAre (cplFlags (~~~a) f) (f.getLsbD 7) (f.getLsbD 6) (!a.getLsbD 5) true
    (!a.getLsbD 3) (f.getLsbD 2) true (f.getLsbD 0) := by
  have h5 : (~~~a).getLsbD 5 = !a.getLsbD 5 := by simp
  have h3 : (~~~a).getLsbD 3 = !a.getLsbD 3 := by simp
  rw [← h5, ← h3]
  exact flagsAre_mkFlags ..

/-- NEG subtracts A from 0 (44_general R262). -/
theorem sub8_zero_spec (a : Byte) : (sub8 0 a false).1 = -a ∧ FlagsAre (sub8 0 a false).2 ((-a).getLsbD 7) (a == 0)
    ((-a).getLsbD 5) (a.toNat % 16 != 0) ((-a).getLsbD 3) (a == 0x80) true (a != 0) := by
  revert a
  unfold FlagsAre
  decide +kernel

/-- Y and X of SCF and CCF are among the values that XY_SCF_CCF allows (44_general R265). -/
theorem scfYX_cases (mode : ScfFlags) (a f free : Byte) :
    let y := (scfYX mode a f free).1
    let x := (scfYX mode a f free).2
    match mode with
    | .fromA => y = a.getLsbD 5 ∧ x = a.getLsbD 3
    | .chipQ => (y = a.getLsbD 5 ∨ y = (a ||| f).getLsbD 5) ∧ (x = a.getLsbD 3 ∨ x = (a ||| f).getLsbD 3) := by
  cases mode with
  | fromA => exact ⟨rfl, rfl⟩
  | chipQ =>
    refine ⟨?_, ?_⟩ <;> dsimp only [scfYX] <;> split
    · exact .inr rfl
    · exact .inl rfl
    · exact .inr rfl
    · exact .inl rfl

/-- Settles O47, instruction by instruction. -/
theorem complementAndCarry : Obligations.ComplementAndCarry := by
  refine ⟨fun s => ?cpl, fun y s => ?neg, fun s => ?ccf, fun s => ?scf⟩
  case cpl =>
    refine ⟨⟨rfl, rfl⟩, cplFlags (~~~s.a) s.f, ?_, flagsAre_cplFlags ..⟩
    rw [← xor_ones]
    rfl
  case neg =>
    obtain ⟨ha, hf⟩ := sub8_zero_spec s.a
    refine ⟨encoded_edField rfl rfl, _, ?_, hf⟩
    rw [← ha]
    rfl
  case ccf =>
    refine ⟨⟨rfl, rfl⟩, _, _, _, s.scfBits.2.draws, ?_, scfYX_cases s.params.scfFlags s.a s.f (Config.freeByte s.draws),
      flagsAre_mkFlags ..⟩
    show execCcf s = _
    rw [execCcf, scfBits_eq]
    rfl
  case scf =>
    refine ⟨⟨rfl, rfl⟩, _, _, _, s.scfBits.2.draws, ?_, scfYX_cases s.params.scfFlags s.a s.f (Config.freeByte s.draws),
      flagsAre_mkFlags ..⟩
    show execScf s = _
    rw [execScf, scfBits_eq]
    rfl

/-- The field y of an IM instruction is one of its mirrors (44_general R270). -/
theorem wellFormed_im (y : BitVec 3) :
    ((Instr.im0 y).wellFormed = true ↔ y = 0 ∨ y = 1 ∨ y = 4 ∨ y = 5) ∧
    ((Instr.im1 y).wellFormed = true ↔ y = 2 ∨ y = 6) ∧ ((Instr.im2 y).wellFormed = true ↔ y = 3 ∨ y = 7) := by
  revert y
  decide +kernel

/-- Settles O48, instruction by instruction. -/
theorem controlInstructions : Obligations.ControlInstructions := by
  refine ⟨fun _ => ⟨⟨rfl, rfl⟩, rfl⟩, fun _ => ⟨⟨rfl, rfl⟩, rfl⟩, fun _ => ⟨⟨rfl, rfl⟩, rfl⟩,
    fun _ => ⟨⟨rfl, rfl⟩, rfl⟩, fun y s => ?im0, fun y s => ?im1, fun y s => ?im2⟩
  case im0 =>
    obtain ⟨h, -, -⟩ := wellFormed_im y
    exact ⟨encoded_edField rfl rfl, h, rfl⟩
  case im1 =>
    obtain ⟨-, h, -⟩ := wellFormed_im y
    exact ⟨encoded_edField rfl rfl, h, rfl⟩
  case im2 =>
    obtain ⟨-, -, h⟩ := wellFormed_im y
    exact ⟨encoded_edField rfl rfl, h, rfl⟩

end Sys2Proof.Machine
end

section
/-! PROOFS. BIT (47_bit R340 to R342). -/

namespace Sys2Proof.Machine

theorem encoded_bitReg (b : BitVec 3) (r : Reg8) : Encoded (.bitReg b r) [0xCB, 0b01#2 ++ b ++ r.code] 2 :=
  ⟨congrArg (fun op => [0xCB, op]) (or_field3_or_low3 1 b r.code), rfl⟩

theorem encoded_bitAtHl (b : BitVec 3) : Encoded (.bitAtHl b) [0xCB, 0b01#2 ++ b ++ 0b110#3] 2 :=
  ⟨congrArg (fun op => [0xCB, op]) (or_field3 1 b 6), rfl⟩

theorem encoded_bitAtXr (x : XR) (d : Byte) (b z : BitVec 3) :
    Encoded (.bitAtXr x d b z) [xrCode x, 0xCB, d, 0b01#2 ++ b ++ z] 2 :=
  encoded_of_lead (congrArg (fun op => [x.lead, 0xCB, d, op]) (or_field3_or_low3 1 b z)) rfl

/-- Settles O53: in each form, F is `bitFlags` of the operand's byte and of the byte that Y and X come from. -/
theorem bitTest : Obligations.BitTest := by
  refine ⟨fun b r s => ?reg, fun b s => ?atHl, fun x d b z s => ?atXr⟩
  case reg => exact ⟨encoded_bitReg b r, _, rfl, flagsAre_mkFlags ..⟩
  case atHl => exact ⟨encoded_bitAtHl b, _, rfl, flagsAre_mkFlags ..⟩
  case atXr => exact ⟨encoded_bitAtXr x d b z, _, rfl, flagsAre_mkFlags ..⟩

end Sys2Proof.Machine
end

section
/-! PROOFS. Calls and returns (48_jump_call R367 to R373). -/

namespace Sys2Proof.Machine

theorem encoded_callCond (cc : Cond) (nn : Word) : Encoded (.callCond cc nn)
    [0b11#2 ++ condCode cc ++ 0b100#3, nn.extractLsb' 0 8, nn.extractLsb' 8 8] 1 := by
  cases cc <;> exact ⟨rfl, rfl⟩

theorem encoded_retCond (cc : Cond) : Encoded (.retCond cc) [0b11#2 ++ condCode cc ++ 0b000#3] 1 := by
  cases cc <;> exact ⟨rfl, rfl⟩

/-- The address of a restart is eight times its field (48_jump_call R373). -/
theorem restart_eq (t : BitVec 3) : t.zeroExtend 16 <<< 3 = BitVec.ofNat 16 (8 * t.toNat) := by
  revert t
  decide +kernel

/-- A call, as the push of PC and the target: SP, the two bytes, PC, the transactions and the T-states alone
(48_jump_call R367). -/
theorem calls_of_exec_eq_callTo {i : Instr} {s : State} {target : Word} {cost : Nat}
    (h : exec i s = .next ((s.callTo target).took cost)) :
    ∃ t, exec i s = .next t ∧
      t = { s with
        pc := target, sp := s.sp - 2, mem := t.mem
        bus := s.bus ++ [mw (s.sp - 1) (hiByte s.pc), mw (s.sp - 2) (loByte s.pc)], tstates := some cost } ∧
      Wrote s t [(s.sp - 1, hiByte s.pc), (s.sp - 2, loByte s.pc)] :=
  ⟨_, h, congrArg (fun u => { u with pc := target, tstates := some cost }) (push_eq_sub_two s s.pc), wrote_push s s.pc⟩

/-- `returnTo_eq` with the two steps of SP as one. -/
theorem returnTo_eq_add_two (s : State) : s.returnTo = { s with
    pc := mkWord (s.byteAt (s.sp + 1)) (s.byteAt s.sp), sp := s.sp + 2
    bus := s.bus ++ [mr s.sp (s.byteAt s.sp), mr (s.sp + 1) (s.byteAt (s.sp + 1))] } := by
  rw [State.returnTo, pop_eq_add_two]

/-- `returnFromInterrupt_eq` with the two steps of SP as one. -/
theorem returnFromInterrupt_eq_add_two (s : State) : s.returnFromInterrupt = { s with
    pc := mkWord (s.byteAt (s.sp + 1)) (s.byteAt s.sp), sp := s.sp + 2, iff1 := s.iff2
    bus := s.bus ++ [mr s.sp (s.byteAt s.sp), mr (s.sp + 1) (s.byteAt (s.sp + 1))] } := by
  rw [State.returnFromInterrupt, pop_eq_add_two]

/-- Every RETN but the row of RETI is a mirror of RETN (48_jump_call R372). -/
theorem wellFormed_retn (y : BitVec 3) : (Instr.retn y).wellFormed = true ↔ y ≠ 1 := by
  revert y
  decide +kernel

/-- Settles O56, form by form: the encoding, then the push or the pop. -/
theorem callsAndReturns : Obligations.CallsAndReturns := by
  refine ⟨fun nn s => ?call, fun cc nn s => ?callCond, fun t s => ?rst, fun s => ?ret, fun cc s => ?retCond,
    fun s => ?reti, fun y s => ?retn⟩
  case call => exact ⟨⟨rfl, rfl⟩, calls_of_exec_eq_callTo rfl⟩
  case callCond =>
    refine ⟨encoded_callCond cc nn, ?_⟩
    have h : exec (.callCond cc nn) s = if ccHolds (condCode cc) s.f then .next ((s.callTo nn).took 17)
        else .next (s.took 10) := by
      rw [← condHolds_eq]
      rfl
    split at h
    · rw [if_pos ‹_›]
      exact calls_of_exec_eq_callTo h
    · rw [if_neg ‹_›]
      exact h
  case rst =>
    refine ⟨⟨congrArg (fun op => [op]) (or_field3 3 t 7), rfl⟩, ?_⟩
    rw [← restart_eq]
    exact calls_of_exec_eq_callTo rfl
  case ret => exact ⟨⟨rfl, rfl⟩, congrArg (fun u => Host.Outcome.next (State.took u 10)) (returnTo_eq_add_two s)⟩
  case retCond =>
    refine ⟨encoded_retCond cc, ?_⟩
    have h : exec (.retCond cc) s = if ccHolds (condCode cc) s.f then .next (s.returnTo.took 11)
        else .next (s.took 5) := by
      rw [← condHolds_eq]
      rfl
    rw [h, returnTo_eq_add_two]
    split <;> rfl
  case reti =>
    exact ⟨⟨rfl, rfl⟩,
      congrArg (fun u => Host.Outcome.next (State.took u 14)) (returnFromInterrupt_eq_add_two s)⟩
  case retn =>
    exact ⟨encoded_edField rfl rfl, wellFormed_retn y,
      congrArg (fun u => Host.Outcome.next (State.took u 14)) (returnFromInterrupt_eq_add_two s)⟩

end Sys2Proof.Machine
end

section
/-! PROOFS. The single transfers between the processor and a port (49_io R390 to R392, R397 to R399). -/

namespace Sys2Proof.Machine

/-- IN r,(C): the register, F, the transaction and the draw, nothing else (49_io R391). -/
theorem execInRegC_eq (r : Reg8) (s : State) :
    let v := Config.ioAnswer s.draws s.bc
    execInRegC r s = .next { s.setReg8 r v with
      f := inFlags v s.f, bus := s.bus ++ [ior s.bc v], draws := s.draws + 1, tstates := some 12 } := by
  cases r <;> rfl

/-- Settles O57, form by form: the encoding, then the transfer. -/
theorem inputAndOutput : Obligations.InputAndOutput := by
  refine ⟨fun n s => ?inAN, fun r s => ?inRegC, fun s => ?inFC, fun n s => ?outNA, fun r s => ?outCReg, fun s => ?outC0⟩
  case inAN => exact ⟨⟨rfl, rfl⟩, rfl⟩
  case inRegC => exact ⟨encoded_edField rfl rfl, _, execInRegC_eq r s, flagsAre_flagsSZXYP ..⟩
  case inFC => exact ⟨⟨rfl, rfl⟩, _, rfl, flagsAre_flagsSZXYP ..⟩
  case outNA => exact ⟨⟨rfl, rfl⟩, rfl⟩
  case outCReg => exact ⟨encoded_edField rfl rfl, rfl⟩
  case outC0 => exact ⟨⟨rfl, rfl⟩, rfl⟩

end Sys2Proof.Machine
end

section
/-! PROOFS. The flags and the repetition of a block instruction (42_exchange_block R206, R213). -/

namespace Sys2Proof.Machine

/-- F of a block iteration: where it repeats under `chip_2018`, Y and X come from the rewound PC and, for block I/O,
H and PV from a free byte (42_exchange_block R213). -/
theorem flagsAre_ite_repeatFlagByte {f : Byte} {s z y h x pv n c : Bool} (hf : FlagsAre f s z y h x pv n c)
    (chip io : Bool) (pc : Word) (free : Byte) :
    FlagsAre (if chip then repeatFlagByte .chip2018 io pc free f else f) s z (if chip then pc.getLsbD 13 else y)
      (if chip && io then flagH free else h) (if chip then pc.getLsbD 11 else x)
      (if chip && io then flagPV free else pv) n c := by
  cases chip with
  | false => exact hf
  | true =>
    obtain ⟨rfl, rfl, -, rfl, -, rfl, rfl, rfl⟩ := hf
    exact flagsAre_mkFlags ..

/-- The same for a load or a compare, which keeps H and PV. -/
theorem flagsAre_ite_repeatFlagByte_false {f : Byte} {s z y h x pv n c : Bool} (hf : FlagsAre f s z y h x pv n c)
    (chip : Bool) (pc : Word) (free : Byte) :
    FlagsAre (if chip then repeatFlagByte .chip2018 false pc free f else f) s z (if chip then pc.getLsbD 13 else y) h
      (if chip then pc.getLsbD 11 else x) pv n c := by
  simpa using flagsAre_ite_repeatFlagByte hf chip false pc free

/-- An instruction that does not repeat is one iteration that is not repeated. -/
theorem repeatBlock_false (s : State) (io : Bool) : s.repeatBlock io false = s.took 16 := rfl

end Sys2Proof.Machine
end

section
/-! PROOFS. LDI, LDD, LDIR and LDDR (42_exchange_block R205 to R208, R213). -/

namespace Sys2Proof.Machine

/-- One iteration moves a byte, counts HL, DE and BC, and writes F (42_exchange_block R205, R207). -/
theorem blockLoad_eq (s : State) (step : Word) : s.blockLoad step = { s with
    h := hiByte (s.hl + step), l := loByte (s.hl + step), d := hiByte (s.de + step), e := loByte (s.de + step)
    b := hiByte (s.bc - 1), c := loByte (s.bc - 1), f := blockLoadFlags s.a (s.byteAt s.hl) (s.bc - 1) s.f
    mem := memSet s.mem s.de.toNat (s.byteAt s.hl)
    bus := s.bus ++ [mr s.hl (s.byteAt s.hl), mw s.de (s.byteAt s.hl)] } := by
  simp [State.blockLoad, State.readAt, State.emit, State.writeAt, State.setHl, State.setDe, State.setBc, State.setF,
    mr, mw]

/-- The whole of a block load, repeating or not. -/
theorem repeatBlock_blockLoad_eq (s : State) (step : Word) (again : Bool) :
    let v := s.byteAt s.hl
    let chip := again && s.params.repeatFlags == .chip2018
    let f := blockLoadFlags s.a v (s.bc - 1) s.f
    (s.blockLoad step).repeatBlock false again = { s with
      h := hiByte (s.hl + step), l := loByte (s.hl + step), d := hiByte (s.de + step), e := loByte (s.de + step)
      b := hiByte (s.bc - 1), c := loByte (s.bc - 1)
      f := if chip then repeatFlagByte .chip2018 false (s.pc - 2) (Config.freeByte s.draws) f else f
      pc := if again then s.pc - 2 else s.pc, draws := if chip then s.draws + 1 else s.draws
      mem := memSet s.mem s.de.toNat v, bus := s.bus ++ [mr s.hl v, mw s.de v]
      tstates := some (if again then 21 else 16) } := by
  rw [repeatBlock_eq, blockLoad_eq]

/-- Settles O39: each is one iteration, repeated or not. -/
theorem blockLoad : Obligations.BlockLoad := by
  unfold Obligations.BlockLoad
  intro loads
  have h {i : Instr} {s : State} {step : Word} {repeating : Bool}
      (hi : exec i s = .next ((s.blockLoad step).repeatBlock false (repeating && s.bc - 1 != 0))) :
      loads i s step repeating := by
    rw [repeatBlock_blockLoad_eq] at hi
    exact ⟨_, hi, rfl, flagsAre_ite_repeatFlagByte_false (flagsAre_mkFlags ..) .., wrote_one rfl⟩
  exact ⟨fun s => ⟨⟨rfl, rfl⟩, h rfl⟩, fun s => ⟨⟨rfl, rfl⟩, h rfl⟩, fun s => ⟨⟨rfl, rfl⟩, h rfl⟩,
    fun s => ⟨⟨rfl, rfl⟩, h rfl⟩⟩

end Sys2Proof.Machine
end

section
/-! PROOFS. CPI, CPD, CPIR and CPDR (42_exchange_block R209 to R213). -/

namespace Sys2Proof.Machine

/-- One iteration compares, counts HL and BC, and writes F (42_exchange_block R209, R211). -/
theorem blockCompare_eq (s : State) (step : Word) : s.blockCompare step = { s with
    h := hiByte (s.hl + step), l := loByte (s.hl + step), b := hiByte (s.bc - 1), c := loByte (s.bc - 1)
    f := blockCompareFlags s.a (s.byteAt s.hl) (s.bc - 1) s.f, bus := s.bus ++ [mr s.hl (s.byteAt s.hl)] } := rfl

/-- The whole of a block compare, repeating or not. -/
theorem repeatBlock_blockCompare_eq (s : State) (step : Word) (again : Bool) :
    let v := s.byteAt s.hl
    let chip := again && s.params.repeatFlags == .chip2018
    let f := blockCompareFlags s.a v (s.bc - 1) s.f
    (s.blockCompare step).repeatBlock false again = { s with
      h := hiByte (s.hl + step), l := loByte (s.hl + step), b := hiByte (s.bc - 1), c := loByte (s.bc - 1)
      f := if chip then repeatFlagByte .chip2018 false (s.pc - 2) (Config.freeByte s.draws) f else f
      pc := if again then s.pc - 2 else s.pc, draws := if chip then s.draws + 1 else s.draws
      bus := s.bus ++ [mr s.hl v], tstates := some (if again then 21 else 16) } := by
  rw [repeatBlock_eq, blockCompare_eq]

/-- The flags of a compare: Y and X from A - v less the borrow (42_exchange_block R209). -/
theorem flagsAre_blockCompareFlags (a v : Byte) (bc : Word) (f : Byte) :
    let borrow := decide (a.toNat % 16 < v.toNat % 16)
    let n := if borrow then a - v - 1 else a - v
    FlagsAre (blockCompareFlags a v bc f) ((a - v).getLsbD 7) (a - v == 0) (n.getLsbD 1) borrow (n.getLsbD 3)
      (bc != 0) true (f.getLsbD 0) := by
  intro borrow n
  have hn : a - v - (BitVec.ofBool borrow).zeroExtend 8 = n := by
    cases hb : borrow <;> simp [n, hb]
  rw [← hn]
  exact flagsAre_mkFlags ..

/-- The bytes compared differ exactly where their difference is not 0. -/
theorem sub_bne_zero (a v : Byte) : (a - v != 0) = (a != v) :=
  congrArg (!·) (decide_eq_decide.mpr sub_eq_zero)

/-- Settles O40: each is one iteration, repeated or not. -/
theorem blockCompare : Obligations.BlockCompare := by
  unfold Obligations.BlockCompare
  intro compares
  have h {i : Instr} {s : State} {step : Word} {repeating : Bool}
      (hi : exec i s = .next ((s.blockCompare step).repeatBlock false
        (repeating && s.bc - 1 != 0 && s.a != s.byteAt s.hl))) : compares i s step repeating := by
    rw [← sub_bne_zero, repeatBlock_blockCompare_eq] at hi
    exact ⟨_, _, hi, flagsAre_ite_repeatFlagByte_false (flagsAre_blockCompareFlags ..) ..⟩
  exact ⟨fun s => ⟨⟨rfl, rfl⟩, h rfl⟩, fun s => ⟨⟨rfl, rfl⟩, h rfl⟩, fun s => ⟨⟨rfl, rfl⟩, h rfl⟩,
    fun s => ⟨⟨rfl, rfl⟩, h rfl⟩⟩

end Sys2Proof.Machine
end

section
/-! PROOFS. INI, IND, INIR, INDR, OUTI, OUTD, OTIR and OTDR (49_io R393 to R396, R400 to R403). -/

namespace Sys2Proof.Machine

/-- One iteration of input: a byte from the port goes to (HL); HL and B count, and F is written
(49_io R393, R395). -/
theorem blockIn_eq (s : State) (step : Word) :
    let v := Config.ioAnswer s.draws s.bc
    s.blockIn step = { s with
      b := s.b - 1, h := hiByte (s.hl + step), l := loByte (s.hl + step)
      f := blockIoFlags v (s.b - 1) (v.toNat + (s.c + loByte step).toNat), mem := memSet s.mem s.hl.toNat v
      bus := s.bus ++ [ior s.bc v, mw s.hl v], draws := s.draws + 1 } := by
  simp [State.blockIn, State.ioRead, State.emit, State.writeAt, State.setHl, State.setF, State.hl, ior, mw]

/-- One iteration of output: the byte at (HL) goes to the port with B counted down; HL counts, and F is written
(49_io R400, R402). -/
theorem blockOut_eq (s : State) (step : Word) :
    let v := s.byteAt s.hl
    s.blockOut step = { s with
      b := s.b - 1, h := hiByte (s.hl + step), l := loByte (s.hl + step)
      f := blockIoFlags v (s.b - 1) (v.toNat + (loByte (s.hl + step)).toNat)
      bus := s.bus ++ [mr s.hl v, iow (mkWord (s.b - 1) s.c) v] } := by
  simp [State.blockOut, State.readAt, State.ioWrite, State.emit, State.setHl, State.setF, State.bc, mr, iow]

/-- The whole of a block input, repeating or not. -/
theorem repeatBlock_blockIn_eq (s : State) (step : Word) (again : Bool) :
    let v := Config.ioAnswer s.draws s.bc
    let chip := again && s.params.repeatFlags == .chip2018
    let f := blockIoFlags v (s.b - 1) (v.toNat + (s.c + loByte step).toNat)
    (s.blockIn step).repeatBlock true again = { s with
      b := s.b - 1, h := hiByte (s.hl + step), l := loByte (s.hl + step)
      f := if chip then repeatFlagByte .chip2018 true (s.pc - 2) (Config.freeByte (s.draws + 1)) f else f
      pc := if again then s.pc - 2 else s.pc, draws := if chip then s.draws + 1 + 1 else s.draws + 1
      mem := memSet s.mem s.hl.toNat v, bus := s.bus ++ [ior s.bc v, mw s.hl v]
      tstates := some (if again then 21 else 16) } := by
  rw [repeatBlock_eq, blockIn_eq]

/-- The whole of a block output, repeating or not. -/
theorem repeatBlock_blockOut_eq (s : State) (step : Word) (again : Bool) :
    let v := s.byteAt s.hl
    let chip := again && s.params.repeatFlags == .chip2018
    let f := blockIoFlags v (s.b - 1) (v.toNat + (loByte (s.hl + step)).toNat)
    (s.blockOut step).repeatBlock true again = { s with
      b := s.b - 1, h := hiByte (s.hl + step), l := loByte (s.hl + step)
      f := if chip then repeatFlagByte .chip2018 true (s.pc - 2) (Config.freeByte s.draws) f else f
      pc := if again then s.pc - 2 else s.pc, draws := if chip then s.draws + 1 else s.draws
      bus := s.bus ++ [mr s.hl v, iow (mkWord (s.b - 1) s.c) v], tstates := some (if again then 21 else 16) } := by
  rw [repeatBlock_eq, blockOut_eq]

/-- The flags of IOFLAGS (49_io, block I/O). -/
theorem flagsAre_blockIoFlags (v b : Byte) (k : Nat) : FlagsAre (blockIoFlags v b k) (b.getLsbD 7) (b == 0)
    (b.getLsbD 5) (decide (255 < k)) (b.getLsbD 3) (evenParity (BitVec.ofNat 8 (k % 8) ^^^ b)) (v.getLsbD 7)
    (decide (255 < k)) := by
  rw [← parity_eq]
  exact flagsAre_mkFlags ..

/-- F of a block I/O iteration: IOFLAGS, but for the open H and PV of a repeating one under `chip_2018`
(42_exchange_block R213). -/
theorem flagsAre_blockIo (v b : Byte) (k : Nat) (chip : Bool) (pc : Word) (free : Byte) :
    ∃ h pv, (chip = false → h = decide (255 < k) ∧ pv = evenParity (BitVec.ofNat 8 (k % 8) ^^^ b)) ∧
      FlagsAre (if chip then repeatFlagByte .chip2018 true pc free (blockIoFlags v b k) else blockIoFlags v b k)
        (b.getLsbD 7) (b == 0) (if chip then pc.getLsbD 13 else b.getLsbD 5) h
        (if chip then pc.getLsbD 11 else b.getLsbD 3) pv (v.getLsbD 7) (decide (255 < k)) := by
  refine ⟨_, _, ?_, flagsAre_ite_repeatFlagByte (flagsAre_blockIoFlags v b k) chip true pc free⟩
  rintro rfl
  exact ⟨rfl, rfl⟩

/-- Settles O58: each is one iteration, repeated or not. -/
theorem blockInputOutput : Obligations.BlockInputOutput := by
  unfold Obligations.BlockInputOutput
  intro ioFlags input output
  have hin {i : Instr} {op : Byte} {s : State} {step : Word} {repeating : Bool} (he : Encoded i [0xED, op] 2)
      (hi : exec i s = .next ((s.blockIn step).repeatBlock true (repeating && s.b - 1 != 0))) :
      input i op s step repeating := by
    rw [repeatBlock_blockIn_eq] at hi
    exact ⟨he, _, hi, rfl, flagsAre_blockIo .., wrote_one rfl⟩
  have hout {i : Instr} {op : Byte} {s : State} {step : Word} {repeating : Bool} (he : Encoded i [0xED, op] 2)
      (hi : exec i s = .next ((s.blockOut step).repeatBlock true (repeating && s.b - 1 != 0))) :
      output i op s step repeating := by
    rw [repeatBlock_blockOut_eq] at hi
    exact ⟨he, _, _, hi, flagsAre_blockIo ..⟩
  exact fun s => ⟨hin ⟨rfl, rfl⟩ rfl, hin ⟨rfl, rfl⟩ rfl, hin ⟨rfl, rfl⟩ rfl, hin ⟨rfl, rfl⟩ rfl,
    hout ⟨rfl, rfl⟩ rfl, hout ⟨rfl, rfl⟩ rfl, hout ⟨rfl, rfl⟩ rfl, hout ⟨rfl, rfl⟩ rfl⟩

end Sys2Proof.Machine
end

section
/-! PROOFS. Decimal addition: DAA after ADD or ADC of packed decimal bytes (43_alu8 R233, R234; 44_general R260). -/

namespace Sys2Proof.Machine

/-- The correction that DAA adds after an addition with result `res`, half carry `h` and carry `c`
(44_general R260). -/
def decimalCorrection (res : Nat) (h c : Prop) [Decidable h] [Decidable c] : Nat :=
  (if h ∨ 9 < res % 16 then 0x06 else 0) + (if c ∨ 0x99 < res then 0x60 else 0)

/-- The correction makes the sum of two packed decimal bytes one, with the hundreds in the carry: the low digits
carry past 9 where they pass 15 or leave more than 9, and so do the high digits. -/
theorem decimal_sum {a v c : Nat} (ha : a / 16 ≤ 9 ∧ a % 16 ≤ 9) (hv : v / 16 ≤ 9 ∧ v % 16 ≤ 9) (hc : c ≤ 1) :
    let res := (a + v + c) % 256
    let sum := (res + decimalCorrection res (15 < a % 16 + v % 16 + c) (255 < a + v + c)) % 256
    (sum / 16 ≤ 9 ∧ sum % 16 ≤ 9) ∧
      sum / 16 * 10 + sum % 16 + 100 * (decide (255 < a + v + c ∨ 0x99 < res)).toNat =
        a / 16 * 10 + a % 16 + (v / 16 * 10 + v % 16) + c := by
  intro res sum
  obtain ⟨ha1, ha0⟩ := ha
  obtain ⟨hv1, hv0⟩ := hv
  simp only [sum, decimalCorrection, Bool.toNat, Bool.cond_decide]
  split_ifs <;> simp only [res] at * <;> omega

/-- DAA after an addition: N is clear, so it adds the correction (44_general R260). -/
theorem daa8_of_add8 (a v : Byte) (c : Bool) :
    let res := (a.toNat + v.toNat + c.toNat) % 256
    let low := 15 < a.toNat % 16 + v.toNat % 16 + c.toNat
    let high := 255 < a.toNat + v.toNat + c.toNat
    let t := add8 a v c
    (daa8 t.1 t.2).1.toNat = (res + decimalCorrection res low high) % 256 ∧
      (daa8 t.1 t.2).2.getLsbD 0 = decide (high ∨ 0x99 < res) := by
  intro res low high t
  obtain ⟨hres, -, -, -, hH, -, -, hN, hC⟩ := add8_spec a v c
  have hmod : res % 256 = res := Nat.mod_mod ..
  have hto : t.1.toNat = res := congrArg BitVec.toNat hres
  have hN' : flagN t.2 = false := hN
  have hH' : flagH t.2 = decide low := hH
  have hC' : flagC t.2 = decide high := hC
  obtain ⟨hsum, -, -, -, -, -, -, -, hcarry⟩ := daa8_spec t.1 t.2
  rw [daaCorrection_eq, hN', hH', hC', hto] at hsum
  rw [hcarry, hC', hto, hsum]
  refine ⟨?_, by simp⟩
  by_cases hl : low ∨ 9 < res % 16 <;> by_cases hh : high ∨ 0x99 < res <;>
    simp [decimalCorrection, hl, hh, hto, hmod]

/-- Settles O46: A and F after the addition are those of ADD8, and DAA corrects them. -/
theorem decimalAdjustAfterAddition : Obligations.DecimalAdjustAfterAddition := by
  intro s r withCarry t u packed decimal ha hr ht hu
  have hinstr : (if withCarry then .adcReg r else .addReg r) =
      aluInstr (if withCarry then .adc else .add) (.reg r) := by cases withCarry <;> rfl
  rw [hinstr, exec_aluInstr, alu8_add_eq] at ht
  cases ht
  cases hu
  obtain ⟨hsum, hcarry⟩ := daa8_of_add8 s.a (s.reg8 r) (withCarry && s.f.getLsbD 0)
  obtain ⟨hpacked, hdecimal⟩ := decimal_sum ha hr (Bool.toNat_le (withCarry && s.f.getLsbD 0))
  rw [← hsum] at hpacked hdecimal
  refine ⟨hpacked, Eq.trans ?_ hdecimal⟩
  rw [← hcarry]
  rfl

end Sys2Proof.Machine
end

section
/-! PROOFS. An ignored index prefix (30_encoding R112 to R114). -/

namespace Sys2Proof.Machine

/-- Settles O60: the row of an ignored prefix is the row of its instruction with 4 T-states more. -/
theorem ignoredPrefixCostsFour : Obligations.IgnoredPrefixCostsFour := by
  intro x i s _ hw
  have he : x.lead :: encode i = xrCode x :: encode i := congrArg (· :: encode i) (lead_eq_xrCode x)
  obtain ⟨t, ht, -⟩ := exec_leaves hw
  have hrow : (runRow i s).addT 4 = .next { t with tstates := t.tstates.map (· + 4) } := by
    rw [← exec_eq_runRow hw, ht]
    rfl
  exact ⟨⟨he, rfl⟩, ⟨he, rfl⟩, ⟨he, rfl⟩, t, ht, fun _ => hrow, fun _ => hrow, fun _ => hrow⟩

end Sys2Proof.Machine
end

section
/-! PROOFS. The entries of the CB and XYCB tables as the instructions that their bytes decode to
(30_encoding R107, R115). -/

namespace Sys2Proof.Machine

/-- The operand of an entry of the CB table. -/
def cbOperand (op : Byte) : Operand :=
  match reg8Of (opZ op) with
  | some r => .reg r
  | none => .atHl

/-- The operand of an entry of the XYCB table: a register takes a copy. -/
def xyCbOperand (x : XR) (d op : Byte) : Operand :=
  match reg8Of (opZ op) with
  | some r => .copy x d r
  | none => .atXr x d

/-- The instruction of an entry with x = 0, 2 or 3 on an operand. -/
def cbInstr (op : Byte) (m : Operand) : Option Instr :=
  match (opX op).toNat with
  | 0 => rotInstr (rotOf (opY op)) m
  | 2 => resInstr (opY op) m
  | _ => setInstr (opY op) m

/-- That instruction is its form's read-modify-write with the operation of the entry. -/
theorem exec_cbInstr {op : Byte} {m : Operand} {i : Instr} (h : cbInstr op m = some i) (s : State) :
    exec i s = .next ((m.modify s (cbOp op)).took m.cbCost) := by
  have hop (f : Byte → Byte → Byte × Byte) (hf : ∀ v w, cbOp op v w = f v w) : cbOp op = f :=
    funext fun v => funext (hf v)
  unfold cbInstr at h
  split at h
  case h_1 hx =>
    rw [hop (rotOp (rotOf (opY op))) fun v f => by simp only [cbOp, hx]]
    exact exec_rotInstr h s
  case h_2 hx =>
    rw [hop (resOp (opY op)) fun v f => by simp only [cbOp, hx]]
    exact exec_resInstr h s
  case h_3 h0 h2 =>
    rw [hop (setOp (opY op)) fun v f => by
      unfold cbOp
      split
      · exact absurd ‹_› h0
      · exact absurd ‹_› h2
      · rfl]
    exact exec_setInstr h s

/-- The rotate of (XR+d) by its field is the rotate by its name (30_encoding R102). -/
theorem rotInstr_rotOf_atXr (y : BitVec 3) (x : XR) (d : Byte) :
    rotInstr (rotOf y) (.atXr x d) = some (rotAtXr y x d) := by
  obtain ⟨k⟩ := y
  fin_cases k <;> rfl

/-- So is the one that copies its result to a register. -/
theorem rotInstr_rotOf_copy (y : BitVec 3) (x : XR) (d : Byte) (r : Reg8) :
    rotInstr (rotOf y) (.copy x d r) = some (rotAtXrReg y x d r) := by
  obtain ⟨k⟩ := y
  fin_cases k <;> rfl

/-- An entry of the CB table that is no BIT decodes to its instruction (30_encoding R107). -/
theorem cbInstr_cbOperand {op : Byte} (h : opX op ≠ 1) : cbInstr op (cbOperand op) = some (decodeCB op) := by
  revert op
  decide +kernel

/-- The x field of an entry that is no BIT (30_encoding R107). -/
theorem opX_cases : ∀ x : BitVec 2, x ≠ 1 → x = 0 ∨ x = 2 ∨ x = 3 := by decide

/-- So does one of the XYCB table (30_encoding R115). -/
theorem cbInstr_xyCbOperand (x : XR) (d : Byte) {op : Byte} (h : opX op ≠ 1) :
    cbInstr op (xyCbOperand x d op) = some (decodeXyCb x d op) := by
  unfold cbInstr xyCbOperand decodeXyCb
  obtain h | h | h := opX_cases _ h <;> rw [h]
  · cases reg8Of (opZ op) with
    | none => exact rotInstr_rotOf_atXr (opY op) x d
    | some r => exact rotInstr_rotOf_copy (opY op) x d r
  · cases reg8Of (opZ op) <;> rfl
  · cases reg8Of (opZ op) <;> rfl

/-- An entry of the CB table runs as the instruction that it decodes to (30_encoding R107). -/
theorem runCbEntry_eq_exec (op : Byte) (s : State) : runCbEntry op s = exec (decodeCB op) s := by
  by_cases hx : opX op = 1
  · unfold runCbEntry decodeCB
    rw [hx]
    cases reg8Of (opZ op) <;> rfl
  · rw [exec_cbInstr (cbInstr_cbOperand hx)]
    unfold runCbEntry cbOperand
    cases reg8Of (opZ op) <;> exact if_neg hx

/-- An entry of the XYCB table runs as the instruction that it decodes to (30_encoding R115). -/
theorem runXyCbEntry_eq_exec (x : XR) (d op : Byte) (s : State) :
    runXyCbEntry x d op s = exec (decodeXyCb x d op) s := by
  by_cases hx : opX op = 1
  · unfold runXyCbEntry decodeXyCb
    rw [hx]
    cases reg8Of (opZ op) <;> rfl
  · rw [exec_cbInstr (cbInstr_xyCbOperand x d hx)]
    unfold runXyCbEntry xyCbOperand
    rw [if_neg hx]
    cases reg8Of (opZ op) <;> rfl

end Sys2Proof.Machine
end

section
/-! PROOFS. The rows of the prefix bytes (30_encoding R105, R107, R108, R110, R115, R116). -/

namespace Sys2Proof.Machine

/-- A row that fetches the rest of its entry runs as that entry, whatever number of bytes it is decoded from
(log entry 15). -/
theorem exec_of_runAfter {front : List Byte} {row i : Instr} {rest : List Byte} {s : State} {n : Nat}
    (hrow : exec row s = runAfter front s)
    (hd : decodeWith s.params.undocUnimpl (front ++ s.bytesFrom n 0 s.pc) = .ok (i, rest)) :
    ∃ t, exec row s = .next t ∧ exec i (s.fetchedRest i) = .next t := by
  obtain ⟨hw, -⟩ := encodeOfDecodeIsIdentity _ _ _ _ hd
  obtain ⟨rest', hd'⟩ := decodeWith_window hd
  have hp : (s.fetchedRest i).params = s.params := by
    unfold State.fetchedRest
    rw [fetchBytes_eq, fetchOps_eq]
  rw [← hp] at hw
  obtain ⟨t, ht, -⟩ := exec_leaves hw
  refine ⟨t, ?_, ht⟩
  rw [hrow, ← ht, exec_eq_runRow hw, runAfter, hd']

/-- Settles O59, row by row. -/
theorem prefixRowsRunTheirEntry : Obligations.PrefixRowsRunTheirEntry := by
  refine ⟨fun op i s hd => ?cb, fun x d op i s hd => ?xyCb, fun op i rest s n _ hd => exec_of_runAfter rfl hd,
    fun op s h => runAfter_ed_unpopulated h s, fun op i rest s n hd => exec_of_runAfter rfl hd,
    fun op i rest s n hd => exec_of_runAfter rfl hd, fun x op s hm hcb hdd hed hfd => ?undoc⟩
  case cb =>
    obtain ⟨rfl, -⟩ := Prod.mk.inj (Except.ok.inj ((decodeWith_cb Config.undocUnimpl op []).symm.trans hd))
    obtain ⟨t, ht, -⟩ := runCbEntry_leaves op s
    exact ⟨t, ht, (runCbEntry_eq_exec op s).symm.trans ht⟩
  case xyCb =>
    have hd' : decodeWith Config.undocUnimpl [xrCode x, 0xCB, d, op] = .ok (decodeXyCb x d op, []) := by
      cases x <;> rfl
    obtain ⟨rfl, -⟩ := Prod.mk.inj (Except.ok.inj (hd'.symm.trans hd))
    obtain ⟨t, ht, -⟩ := runXyCbEntry_leaves x d op s
    exact ⟨t, ht, (runXyCbEntry_eq_exec x d op s).symm.trans ht⟩
  case undoc =>
    exact Eq.trans (by cases x <;> rfl) (runAfter_undocHit (undocHit_of_mem hm hcb hdd hed hfd))

end Sys2Proof.Machine
end
